-- ==== Sys2Proof/Word.lean ====
section
/-! DEFINITION. The words the manual uses (R11, R18, R47) and the sparse map in which the model holds numbered units. -/

namespace Sys2Proof

/-- A byte (R11). -/
abbrev Byte := BitVec 8
/-- A BAR0 register (R12). -/
abbrev Word32 := BitVec 32
/-- A scalar register, a T_ register, an OZ8 instruction word (R47, R171). -/
abbrev Word := BitVec 64
/-- A logical tile id: die 11, region 10:8, cluster 7:4, tile 3:0 (R30). -/
abbrev TileId := BitVec 12
/-- The number of a scalar or vector register in an instruction word (R171, R215). -/
abbrev RegNo := BitVec 5

/-- A family of units numbered by naturals of which all but the listed ones hold the default. The keys rise
strictly, and no listed value equals the default. -/
abbrev SMap (α : Type) := List (Nat × α)

end Sys2Proof
end

