-- ==== Sys2Proof/Syntax.lean ====
section
/-! DEFINITION. The commands and events of the block: one constructor per row of spec/opcode_table.json, with its operands.
The operands of an OZ8 instruction are the fields of its word and the tile whose scalar core holds it. -/

namespace Sys2Proof

/-! ### The fields of an OZ8 instruction word -/

/-- The wait and signal fields of the E format: the counter waited on and the counter signalled (R174). -/
structure WaitSig where
  wait : Option (BitVec 4)
  sig : Option (BitVec 4)
deriving DecidableEq, Repr

/-- The fields of SYNC (R190, R192). -/
structure SyncFields where
  phase : BitVec 8
  bubble : Bool
  yield : Bool
  ext : Bool
deriving DecidableEq, Repr

/-- The operand of a scalar load or store, format M (R171, R181, R182). -/
structure MemArg where
  rs1 : RegNo
  crm : Bool
  cr : BitVec 4
  off : BitVec 22
deriving DecidableEq, Repr

/-- An access to T_STP_TN6: a TRD into rd, or a TWR from rs1 (R169, R187). -/
inductive Tn6Access where
  | read (rd : RegNo)
  | write (rs1 : RegNo)
deriving DecidableEq, Repr

/-- MSTAT's operand field (R209). -/
structure MstatF where
  ra : RegNo
  rp : RegNo
  rsh : RegNo
  fmt : BitVec 4
deriving DecidableEq, Repr

/-- MMUL's operand field (R210). -/
structure MmulF where
  ra : RegNo
  rp : RegNo
  rsh : RegNo
  fmt : BitVec 4
  acc : BitVec 2
  zero : Bool
  rtz : Bool
  scale : BitVec 9
  trans : Bool
deriving DecidableEq, Repr

/-- MREAD's operand field (R212). -/
structure MreadF where
  rd : RegNo
  rsc : RegNo
  rsh : RegNo
  dsel : BitVec 2
  acc : BitVec 2
  clear : Bool
  rtz : Bool
deriving DecidableEq, Repr

/-- The vector format (R215). `ty`: 0 binary32, 1 binary64, 2 int32, 3 int64. -/
structure VecF where
  vd : RegNo
  va : RegNo
  vb : RegNo
  vc : RegNo
  ty : BitVec 2
  mv : Bool
  vm : RegNo
  sub : BitVec 4
deriving DecidableEq, Repr

/-- VLD's operand field (R221). -/
structure VldF where
  vd : RegNo
  ra : RegNo
  rb : RegNo
  form : BitVec 2
  esize : BitVec 2
  crm : Bool
  cr : BitVec 4
deriving DecidableEq, Repr

/-- VCVT's operand field (R222). -/
structure VcvtF where
  rs : RegNo
  rd : RegNo
  rn : RegNo
  rp : RegNo
  rt : RegNo
  re : RegNo
  sfmt : BitVec 4
  dfmt : BitVec 4
  mode : BitVec 2
  sat : Bool
deriving DecidableEq, Repr

/-- VSAMPLE's operand field (R225). -/
structure VsampleF where
  rz : RegNo
  rn : RegNo
  rb : RegNo
  rt : RegNo
  re : RegNo
  rr : RegNo
  k : BitVec 7
  greedy : Bool
deriving DecidableEq, Repr

/-- The operand field that the four Stipple instructions share (R228). -/
structure StipF where
  rd : RegNo
  rn : RegNo
  rt : RegNo
  re : RegNo
  stg : Bool
  p : BitVec 16
deriving DecidableEq, Repr

/-- PSEND's operand field (R234). -/
structure PsendF where
  rdst : RegNo
  rsrc : RegNo
  tag : BitVec 16
  len : BitVec 4
  tagr : Bool
deriving DecidableEq, Repr

/-- SGET's and SPUT's operand field (R236). -/
structure ScopyF where
  rl : RegNo
  rv : RegNo
  rn : RegNo
  rst : RegNo
  acq : Bool
  rel : Bool
  crm : Bool
  cr : BitVec 4
deriving DecidableEq, Repr

/-- SAMO's operand field (R236). -/
structure SamoF where
  rv : RegNo
  rx : RegNo
  rc : RegNo
  rr : RegNo
  acq : Bool
  rel : Bool
  aop : BitVec 3
deriving DecidableEq, Repr

/-! ### The fields of commands, events and packets -/

/-- The header of a started command packet as its family sees it (R418). -/
structure CmdHdr where
  queue : Nat
  seq : BitVec 32
  irq : Bool
  expert : Bool
  timeoutMs : BitVec 32
deriving DecidableEq, Repr

/-- Where a LOAD or PROOF finds its image (R424): in package memory, or in host memory, whose bytes the command carries; or the read of
the host's bytes failed (R421). -/
inductive ImageSource where
  | package (addr len : Nat)
  | host (bytes : List Byte)
  | hostFailed (len : Nat)
deriving DecidableEq, Repr

/-- The scope of HALT and RUN (R424, R472, R474). -/
structure DbgScope where
  scope : BitVec 3
  tile : TileId
  ctx : Bool
deriving DecidableEq, Repr

/-- What identifies a post message within 2^32 sends of its sender (R289). -/
structure MsgKey where
  srcDev : BitVec 15
  src : TileId
  srcCtx : Bool
  seq : BitVec 32
deriving DecidableEq, Repr

/-- A request presented at an arbiter (R304, R306). -/
structure ArbReq where
  cls : Nat
  inst : Nat
  input : Nat
  stamp : BitVec 16
  old : Bool
  /-- the post message that a request of classes 0 to 4 is -/
  item : Option MsgKey := none
deriving DecidableEq, Repr

/-- A post message with its 16-byte header and payload (R288). `poisoned` marks a payload that failed its check in
transit (R296); `cut` that the transfer was cut short after this many payload bytes (R310). -/
structure PostMsg where
  destDev : BitVec 15
  dest : TileId
  destCtx : Bool
  len : BitVec 4
  srcDev : BitVec 15
  src : TileId
  srcCtx : Bool
  tag : BitVec 16
  seq : BitVec 32
  payload : List Byte
  poisoned : Bool
  cut : Option Nat
deriving DecidableEq, Repr

/-- A refusal on its way to the sender's NACK ring: the refused message's first header word, reason, tag and
sequence number (R298). -/
structure NackMsg where
  src : TileId
  srcCtx : Bool
  destWord : BitVec 32
  reason : BitVec 3
  tag : BitVec 16
  seq : BitVec 32
deriving DecidableEq, Repr

/-- A POSTACK packet: the message it answers, and the reason of its refusal, or none for an acceptance (R295, R355). -/
structure PostAck where
  src : TileId
  srcCtx : Bool
  seq : BitVec 32
  reason : Option (BitVec 3)
deriving DecidableEq, Repr

/-- An access through the host window (R314). -/
structure HostWinReq where
  addr : Nat
  len : Nat
  write : Bool
  data : List Byte
  poison : Bool
deriving DecidableEq, Repr

/-- A request of the device to the host that draws no completion (R408, R416): a read, or the write of a reply into a queue's ring. -/
inductive PcieReq where
  | read (tag : BitVec 32)
  | reply (queue : Nat)
deriving DecidableEq, Repr

/-- The power states of the PCIe function and link (R408). -/
inductive HostPower where
  | d0
  | d3hot
  | l2
deriving DecidableEq, Repr

/-- QUEUE_CREATE's parameters (R424). -/
structure QueueParams where
  queue : Nat
  sqEntries : Nat
  cqEntries : Nat
  vector : Nat
  sqBase : Word
  cqBase : Word
  coCount : Nat
  coTime : Nat
deriving DecidableEq, Repr

/-- MAP's parameters (R424). -/
structure MapParams where
  asid : BitVec 16
  psize : BitVec 8
  perm : BitVec 8
  va : Nat
  pa : Nat
  len : Nat
deriving DecidableEq, Repr

/-- A copy, a fill or a debug access of global memory (R424, R478); `data` is what a fill or a debug write carries. -/
structure CopyParams where
  srcHost : Bool
  dstHost : Bool
  src : Nat
  dst : Nat
  len : Nat
  data : List Byte
deriving DecidableEq, Repr

/-- START's parameters; `budget` is absent without EXPERT (R424). -/
structure StartParams where
  zone : BitVec 3
  guest : Bool
  hostZone : BitVec 3
  budget : Option (BitVec 32)
  args : List Word
deriving DecidableEq, Repr

/-- MEM_READ's and MEM_WRITE's parameters (R424, R478). -/
structure DbgMem where
  space : BitVec 8
  tile : BitVec 16
  ctx : Bool
  addr : Nat
  buf : Nat
  len : Nat
deriving DecidableEq, Repr

/-- A transport packet: the header of R354 and its data granules (64 bytes each, in order), with the POISON bits of the
slots that carried them (R351). -/
structure Pkt where
  type : BitVec 4
  len : BitVec 4
  hops : BitVec 6
  sr : Bool
  pmask : BitVec 8
  dest : BitVec 15
  src : BitVec 15
  txid : BitVec 32
  addr : Word
  /-- bytes 20–27, byte 20 lowest -/
  args : BitVec 64
  hcrc : BitVec 32
  checks : List (BitVec 32)
  data : List Byte
  slotPoison : BitVec 8
  /-- buffer class (R353) -/
  cls : Bool
  /-- granules that arrived before an ABORT slot cut the packet, or none (R310, R351) -/
  cut : Option Nat
deriving DecidableEq, Repr

/-- A link that discovery has found (R363): the ids of its two devices, the egress of each, and whether it runs version 1. -/
structure TopoLink where
  a : Nat
  ea : Nat
  b : Nat
  eb : Nat
  v1 : Bool
deriving DecidableEq, Repr

/-- A SYNC packet's payload (R374). -/
structure SyncPkt where
  group : BitVec 16
  phase : BitVec 8
  seq : BitVec 12
  value : BitVec 20
  newcal : Bool
  ret : Bool
  stop : Bool
  evict : Bool
deriving DecidableEq, Repr

/-- A message of the calibration walk (R382): it passes to a child with the child's path latency and chain index, or
returns to the parent with the largest path, the next chain index and the edges measured so far. -/
inductive WalkMsg where
  | down (path chain : Nat) (measured : Bool)
  | up (maxPath chain edges : Nat)
deriving DecidableEq, Repr

/-- What fuses or the repair record hold of a cluster's spare map (R35, R46): the cluster (16 × region + cluster), the
failed marks and the substituted tile. -/
structure SpareFields where
  cluster : Nat
  spareFailed : Bool
  secondFail : Bool
  active : Option (BitVec 4)
deriving DecidableEq, Repr

/-- What boot finds outside the device (R439–R442): the slots' images, none where a slot's read fails; the records
of the record area; and the outcomes of the self-test, the HBM training and the crossing calibration. -/
structure BootEnv where
  selfTestOk : Bool
  slot0 : Option (List Byte)
  slot1 : Option (List Byte)
  hbmFail : Option Nat
  /-- crossings that fail calibration: 16 × receiving region + source -/
  badCrossings : List Nat
  /-- DEPTH of each crossing as measured, where `depths` gives it no other: 16 × receiving region + source -/
  depth : BitVec 3
  depths : List (Nat × BitVec 3)
  /-- the fabric configuration record's device id, where it holds one -/
  devId : Option (BitVec 15)
  /-- the configuration record's port settings: port and FAB_PORT_CFG word -/
  portCfg : List (Nat × Word32)
  /-- the repair record can be read -/
  repairOk : Bool
  /-- multifunction selections of the board configuration record: pin, FUNC, FILTER -/
  mfp : List (Nat × BitVec 4 × BitVec 8)
  /-- model constants measured at boot (R393) -/
  model : List (BitVec 16)
deriving DecidableEq, Repr

/-- A regulator, fan or board sensor report (R451): the row of R451's table counted from 0, the unit, the value, and what it
is compared with: the set value or the rating, or the lower and upper limits of the board configuration record. -/
structure ExtReport where
  row : Nat
  unit : Nat
  value : Int
  lo : Int
  ref : Int
deriving DecidableEq, Repr

/-- A DBGACC operation's fields besides OP (R472). -/
structure DbgAcc where
  space : BitVec 3
  ctx : Bool
  tile : TileId
  addr : Word
  data : Word
deriving DecidableEq, Repr

/-- The handler an event of recovery concerns: its level and unit (R456). -/
structure HandlerId where
  level : Nat
  unit : Nat
deriving DecidableEq, Repr


/-- One constructor per row of spec/opcode_table.json, in the table's order. -/
inductive Instr where
  /-- NOP (R191). -/
  | nop (t : TileId)
  /-- BRK (R191). -/
  | brk (t : TileId) (code : BitVec 16)
  /-- IBINV (R195). -/
  | ibinv (t : TileId)
  /-- TEND (R193). -/
  | tend (t : TileId)
  /-- SYNC (R192). -/
  | sync (t : TileId) (f : SyncFields)
  /-- SIG (R188). -/
  | sig (t : TileId) (w : WaitSig)
  /-- FENCE (R194). -/
  | fence (t : TileId) (w : WaitSig) (scope : BitVec 2)
  /-- ADD (R177). -/
  | add (t : TileId) (rd rs1 rs2 : RegNo)
  /-- SUB (R177). -/
  | sub (t : TileId) (rd rs1 rs2 : RegNo)
  /-- AND (R177). -/
  | and (t : TileId) (rd rs1 rs2 : RegNo)
  /-- OR (R177). -/
  | or (t : TileId) (rd rs1 rs2 : RegNo)
  /-- XOR (R177). -/
  | xor (t : TileId) (rd rs1 rs2 : RegNo)
  /-- SLL (R177). -/
  | sll (t : TileId) (rd rs1 rs2 : RegNo)
  /-- SRL (R177). -/
  | srl (t : TileId) (rd rs1 rs2 : RegNo)
  /-- SRA (R177). -/
  | sra (t : TileId) (rd rs1 rs2 : RegNo)
  /-- SLT (R177). -/
  | slt (t : TileId) (rd rs1 rs2 : RegNo)
  /-- SLTU (R177). -/
  | sltu (t : TileId) (rd rs1 rs2 : RegNo)
  /-- MIN (R177). -/
  | min (t : TileId) (rd rs1 rs2 : RegNo)
  /-- MAX (R177). -/
  | max (t : TileId) (rd rs1 rs2 : RegNo)
  /-- MINU (R177). -/
  | minu (t : TileId) (rd rs1 rs2 : RegNo)
  /-- MAXU (R177). -/
  | maxu (t : TileId) (rd rs1 rs2 : RegNo)
  /-- MUL (R177). -/
  | mul (t : TileId) (rd rs1 rs2 : RegNo)
  /-- MULH (R177). -/
  | mulh (t : TileId) (rd rs1 rs2 : RegNo)
  /-- MULHU (R177). -/
  | mulhu (t : TileId) (rd rs1 rs2 : RegNo)
  /-- DIV (R178). -/
  | div (t : TileId) (rd rs1 rs2 : RegNo)
  /-- DIVU (R178). -/
  | divu (t : TileId) (rd rs1 rs2 : RegNo)
  /-- REM (R178). -/
  | rem (t : TileId) (rd rs1 rs2 : RegNo)
  /-- REMU (R178). -/
  | remu (t : TileId) (rd rs1 rs2 : RegNo)
  /-- CLZ (R177). -/
  | clz (t : TileId) (rd rs1 : RegNo)
  /-- CTZ (R177). -/
  | ctz (t : TileId) (rd rs1 : RegNo)
  /-- POPC (R177). -/
  | popc (t : TileId) (rd rs1 : RegNo)
  /-- ADDI (R179). -/
  | addi (t : TileId) (rd rs1 : RegNo) (imm : BitVec 44)
  /-- ANDI (R179). -/
  | andi (t : TileId) (rd rs1 : RegNo) (imm : BitVec 44)
  /-- ORI (R179). -/
  | ori (t : TileId) (rd rs1 : RegNo) (imm : BitVec 44)
  /-- XORI (R179). -/
  | xori (t : TileId) (rd rs1 : RegNo) (imm : BitVec 44)
  /-- SLLI (R179). -/
  | slli (t : TileId) (rd rs1 : RegNo) (sh : BitVec 6)
  /-- SRLI (R179). -/
  | srli (t : TileId) (rd rs1 : RegNo) (sh : BitVec 6)
  /-- SRAI (R179). -/
  | srai (t : TileId) (rd rs1 : RegNo) (sh : BitVec 6)
  /-- SLTI (R179). -/
  | slti (t : TileId) (rd rs1 : RegNo) (imm : BitVec 44)
  /-- SLTIU (R179). -/
  | sltiu (t : TileId) (rd rs1 : RegNo) (imm : BitVec 44)
  /-- LI (R179). -/
  | li (t : TileId) (rd : RegNo) (imm : BitVec 44)
  /-- LIH (R179). -/
  | lih (t : TileId) (rd rs1 : RegNo) (imm : BitVec 20)
  /-- PCADD (R179). -/
  | pcadd (t : TileId) (rd : RegNo) (imm : BitVec 44)
  /-- EXT (R179). -/
  | ext (t : TileId) (rd rs1 : RegNo) (sel : BitVec 3)
  /-- LB (R180). -/
  | lb (t : TileId) (rd : RegNo) (a : MemArg)
  /-- LBU (R180). -/
  | lbu (t : TileId) (rd : RegNo) (a : MemArg)
  /-- LH (R180). -/
  | lh (t : TileId) (rd : RegNo) (a : MemArg)
  /-- LHU (R180). -/
  | lhu (t : TileId) (rd : RegNo) (a : MemArg)
  /-- LW (R180). -/
  | lw (t : TileId) (rd : RegNo) (a : MemArg)
  /-- LWU (R180). -/
  | lwu (t : TileId) (rd : RegNo) (a : MemArg)
  /-- LD (R181). -/
  | ld (t : TileId) (rd : RegNo) (a : MemArg)
  /-- SB (R180). -/
  | sb (t : TileId) (rsd : RegNo) (a : MemArg)
  /-- SH (R180). -/
  | sh (t : TileId) (rsd : RegNo) (a : MemArg)
  /-- SW (R180). -/
  | sw (t : TileId) (rsd : RegNo) (a : MemArg)
  /-- SD (R183). -/
  | sd (t : TileId) (rsd : RegNo) (a : MemArg)
  /-- BEQ (R184). -/
  | beq (t : TileId) (rs1 rs2 : RegNo) (off : BitVec 24)
  /-- BNE (R184). -/
  | bne (t : TileId) (rs1 rs2 : RegNo) (off : BitVec 24)
  /-- BLT (R184). -/
  | blt (t : TileId) (rs1 rs2 : RegNo) (off : BitVec 24)
  /-- BGE (R184). -/
  | bge (t : TileId) (rs1 rs2 : RegNo) (off : BitVec 24)
  /-- BLTU (R184). -/
  | bltu (t : TileId) (rs1 rs2 : RegNo) (off : BitVec 24)
  /-- BGEU (R184). -/
  | bgeu (t : TileId) (rs1 rs2 : RegNo) (off : BitVec 24)
  /-- JAL (R184). -/
  | jal (t : TileId) (rd : RegNo) (off : BitVec 24)
  /-- JALR (R184). -/
  | jalr (t : TileId) (rd rs1 : RegNo) (imm : BitVec 44)
  /-- TRD (R186). -/
  | trd (t : TileId) (rd : RegNo) (taddr : BitVec 12)
  /-- TWR (R186). -/
  | twr (t : TileId) (rs1 : RegNo) (taddr : BitVec 12)
  /-- TWRI (R186). -/
  | twri (t : TileId) (taddr : BitVec 12) (imm : BitVec 32)
  /-- ILLEGAL_INSTRUCTION (R172). -/
  | illegalInstruction (t : TileId) (word : Word)
  /-- T_CRN_CFG_WRITE (R98). -/
  | tCrnCfgWrite (t : TileId) (n : BitVec 4) (v : Word)
  /-- T_STP_TN6_ACCESS (R169). -/
  | tStpTn6Access (t : TileId) (acc : Tn6Access)
  /-- MSTAT (R209). -/
  | mstat (t : TileId) (w : WaitSig) (f : MstatF)
  /-- MMUL (R210). -/
  | mmul (t : TileId) (w : WaitSig) (f : MmulF)
  /-- MREAD (R212). -/
  | mread (t : TileId) (w : WaitSig) (f : MreadF)
  /-- VADD (R216). -/
  | vadd (t : TileId) (w : WaitSig) (f : VecF)
  /-- VSUB (R216). -/
  | vsub (t : TileId) (w : WaitSig) (f : VecF)
  /-- VMUL (R216). -/
  | vmul (t : TileId) (w : WaitSig) (f : VecF)
  /-- VDIV (R216). -/
  | vdiv (t : TileId) (w : WaitSig) (f : VecF)
  /-- VSQRT (R216). -/
  | vsqrt (t : TileId) (w : WaitSig) (f : VecF)
  /-- VFMA (R216). -/
  | vfma (t : TileId) (w : WaitSig) (f : VecF)
  /-- VFMS (R216). -/
  | vfms (t : TileId) (w : WaitSig) (f : VecF)
  /-- VFNMA (R216). -/
  | vfnma (t : TileId) (w : WaitSig) (f : VecF)
  /-- VREM (R216). -/
  | vrem (t : TileId) (w : WaitSig) (f : VecF)
  /-- VMIN (R216). -/
  | vmin (t : TileId) (w : WaitSig) (f : VecF)
  /-- VMAX (R216). -/
  | vmax (t : TileId) (w : WaitSig) (f : VecF)
  /-- VMINNUM (R216). -/
  | vminnum (t : TileId) (w : WaitSig) (f : VecF)
  /-- VMAXNUM (R216). -/
  | vmaxnum (t : TileId) (w : WaitSig) (f : VecF)
  /-- VRINT (R216). -/
  | vrint (t : TileId) (w : WaitSig) (f : VecF)
  /-- VSCALEB (R216). -/
  | vscaleb (t : TileId) (w : WaitSig) (f : VecF)
  /-- VLOGB (R216). -/
  | vlogb (t : TileId) (w : WaitSig) (f : VecF)
  /-- VNEXT (R216). -/
  | vnext (t : TileId) (w : WaitSig) (f : VecF)
  /-- VCMP (R218). -/
  | vcmp (t : TileId) (w : WaitSig) (f : VecF)
  /-- VCLASS (R218). -/
  | vclass (t : TileId) (w : WaitSig) (f : VecF)
  /-- VSGN (R216). -/
  | vsgn (t : TileId) (w : WaitSig) (f : VecF)
  /-- VCVTR (R217). -/
  | vcvtr (t : TileId) (w : WaitSig) (f : VecF) (stype : BitVec 2) (half : Bool)
  /-- VIADD (R216). -/
  | viadd (t : TileId) (w : WaitSig) (f : VecF)
  /-- VISUB (R216). -/
  | visub (t : TileId) (w : WaitSig) (f : VecF)
  /-- VIMUL (R216). -/
  | vimul (t : TileId) (w : WaitSig) (f : VecF)
  /-- VAND (R216). -/
  | vand (t : TileId) (w : WaitSig) (f : VecF)
  /-- VOR (R216). -/
  | vor (t : TileId) (w : WaitSig) (f : VecF)
  /-- VXOR (R216). -/
  | vxor (t : TileId) (w : WaitSig) (f : VecF)
  /-- VSHL (R216). -/
  | vshl (t : TileId) (w : WaitSig) (f : VecF)
  /-- VSHR (R216). -/
  | vshr (t : TileId) (w : WaitSig) (f : VecF)
  /-- VIMIN (R216). -/
  | vimin (t : TileId) (w : WaitSig) (f : VecF)
  /-- VIMAX (R216). -/
  | vimax (t : TileId) (w : WaitSig) (f : VecF)
  /-- VICMP (R216). -/
  | vicmp (t : TileId) (w : WaitSig) (f : VecF)
  /-- VSEL (R216). -/
  | vsel (t : TileId) (w : WaitSig) (f : VecF)
  /-- VSPLAT (R216). -/
  | vsplat (t : TileId) (w : WaitSig) (f : VecF)
  /-- VPERM (R216). -/
  | vperm (t : TileId) (w : WaitSig) (f : VecF)
  /-- VRED (R219). -/
  | vred (t : TileId) (w : WaitSig) (f : VecF)
  /-- VSF (R220). -/
  | vsf (t : TileId) (w : WaitSig) (f : VecF)
  /-- VGUMBEL (R220). -/
  | vgumbel (t : TileId) (w : WaitSig) (vd rt re : RegNo)
  /-- VLD (R221). -/
  | vld (t : TileId) (w : WaitSig) (f : VldF)
  /-- VST (R221). -/
  | vst (t : TileId) (w : WaitSig) (vs ra : RegNo) (crm : Bool) (cr : BitVec 4)
  /-- VLDL (R221). -/
  | vldl (t : TileId) (w : WaitSig) (v ra : RegNo) (lane : BitVec 5) (crm : Bool) (cr : BitVec 4)
  /-- VSTL (R221). -/
  | vstl (t : TileId) (w : WaitSig) (v ra : RegNo) (lane : BitVec 5) (crm : Bool) (cr : BitVec 4)
  /-- VSTG (R226). -/
  | vstg (t : TileId) (w : WaitSig) (vd line : RegNo)
  /-- VCVT (R222). -/
  | vcvt (t : TileId) (w : WaitSig) (f : VcvtF)
  /-- VSPLIT32 (R223). -/
  | vsplit32 (t : TileId) (w : WaitSig) (rs rd rq rn : RegNo) (p3 : Bool)
  /-- VSLICE64 (R224). -/
  | vslice64 (t : TileId) (w : WaitSig) (rs rd rq rsh rsc : RegNo) (sc : BitVec 2) (axis : Bool)
  /-- VSAMPLE (R225). -/
  | vsample (t : TileId) (w : WaitSig) (f : VsampleF)
  /-- RRAW128 (R228). -/
  | rraw128 (t : TileId) (w : WaitSig) (f : StipF)
  /-- RRAW32 (R228). -/
  | rraw32 (t : TileId) (w : WaitSig) (f : StipF)
  /-- RUNI (R228). -/
  | runi (t : TileId) (w : WaitSig) (f : StipF)
  /-- RBERN (R228). -/
  | rbern (t : TileId) (w : WaitSig) (f : StipF)
  /-- XRUN (R230). -/
  | xrun (t : TileId) (w : WaitSig) (ra rl : RegNo)
  /-- PSEND (R234). -/
  | psend (t : TileId) (w : WaitSig) (f : PsendF)
  /-- SDESC (R236). -/
  | sdesc (t : TileId) (w : WaitSig) (ra : RegNo)
  /-- SGET (R236). -/
  | sget (t : TileId) (w : WaitSig) (f : ScopyF)
  /-- SPUT (R236). -/
  | sput (t : TileId) (w : WaitSig) (f : ScopyF)
  /-- SAMO (R335). -/
  | samo (t : TileId) (w : WaitSig) (f : SamoF)
  /-- SFLAG (R339). -/
  | sflag (t : TileId) (w : WaitSig) (rv rx : RegNo) (acq rel : Bool)
  /-- ENGINE_INSTRUCTION_START (R59). -/
  | engineInstructionStart (t : TileId) (eng : Nat)
  /-- ENGINE_INSTRUCTION_FINISH (R58). -/
  | engineInstructionFinish (t : TileId) (eng : Nat)
  /-- INSTRUCTION_FILL (R51). -/
  | instructionFill (t : TileId) (line : Nat)
  /-- AUDIT_CHECK (R63). -/
  | auditCheck (t : TileId)
  /-- SCRUB_STEP (R102). -/
  | scrubStep (t : TileId)
  /-- SP_CE_CLEAR (R99). -/
  | spCeClear (region cluster pos : Nat)
  /-- SYNC_ARRIVAL (R246). -/
  | syncArrival (t : TileId)
  /-- EXCHANGE_SEND (R231). -/
  | exchangeSend (t : TileId)
  /-- EXCHANGE_RECEIVE (R275). -/
  | exchangeReceive (t : TileId)
  /-- END_DECISION (R248). -/
  | endDecision (zone : BitVec 3)
  /-- EVICT_SAVE_DONE (R260). -/
  | evictSaveDone (t : TileId) (ctx : Bool)
  /-- COMPUTE_DROOP_TRIP (R250). -/
  | computeDroopTrip (region : Nat)
  /-- COMPUTE_DROOP_END (R250). -/
  | computeDroopEnd (region : Nat)
  /-- PACKAGE_DROOP_TRIP (R250). -/
  | packageDroopTrip
  /-- PACKAGE_DROOP_END (R250). -/
  | packageDroopEnd
  /-- REFCLK_LOSS (R41). -/
  | refclkLoss
  /-- STEWARD_HEARTBEAT (R27). -/
  | stewardHeartbeat (region : Nat)
  /-- HEARTBEAT_TIMEOUT (R28). -/
  | heartbeatTimeout (region : Nat)
  /-- CROSSING_DRIFT (R280). -/
  | crossingDrift (src region : Nat) (wander : BitVec 6)
  /-- CROSSING_RECENTER (R280). -/
  | crossingRecenter (src region : Nat) (depth : BitVec 4) (confirmed : Bool)
  /-- CROSSING_SLIP (R280). -/
  | crossingSlip (src region : Nat) (wander : BitVec 6)
  /-- XCAL_RECENTER_REQUEST (R280). -/
  | xcalRecenterRequest (region : Nat) (v : Word32)
  /-- XMON_CLEAR (R283). -/
  | xmonClear (region : Nat) (v : Word32)
  /-- POST_SEND_ACCEPT (R289). -/
  | postSendAccept (t : TileId) (ctx : Bool)
  /-- POST_MESSAGE_ARRIVE (R291). -/
  | postMessageArrive (m : PostMsg) (slots : Option Nat)
  /-- NACK_RECORD_ARRIVE (R298). -/
  | nackRecordArrive (n : NackMsg)
  /-- POSTACK_RECEIVE (R295). -/
  | postackReceive (a : PostAck)
  /-- POST_TIMEOUT (R364). -/
  | postTimeout (src : TileId) (ctx : Bool) (seq : BitVec 32)
  /-- ARBITER_GRANT (R307). -/
  | arbiterGrant (cls inst : Nat) (raised : List ArbReq) (dropped : List Nat)
  /-- AGE_TICK (R306). -/
  | ageTick
  /-- AGE_OLD_MARK (R306). -/
  | ageOldMark (cls inst input : Nat)
  /-- ARB_COMMIT (R308). -/
  | arbCommit (v : Word32)
  /-- ARB_MGMT_HOLD (R311). -/
  | arbMgmtHold (v : Word32)
  /-- STREAM_ACCEPT (R321). -/
  | streamAccept (t : TileId) (ctx : Bool)
  /-- TRANSLATION_WALK (R329). -/
  | translationWalk (t : TileId) (ctx : Bool) (slot : Nat)
  /-- HBM_READ (R313). -/
  | hbmRead (addr : Nat)
  /-- HBM_WRITE (R344). -/
  | hbmWrite (addr : Nat) (off : Nat) (data : List Byte) (poison : Bool)
  /-- HBM_ATOMIC (R335). -/
  | hbmAtomic (addr : Nat) (aop : BitVec 3) (x cmp : Word)
  /-- HBM_ROW_CLOSE (R312). -/
  | hbmRowClose (stack row : Nat)
  /-- HBM_REFRESH (R312). -/
  | hbmRefresh (stack : Nat) (rows : List Nat)
  /-- HOST_WINDOW_REQUEST (R314). -/
  | hostWindowRequest (q : HostWinReq)
  /-- STREAM_COMPLETE (R322). -/
  | streamComplete (t : TileId) (ctx : Bool) (slot : Nat)
  /-- FENCE_ORDERING_POINT (R340). -/
  | fenceOrderingPoint (t : TileId) (ctx : Bool) (slot : Nat)
  /-- XLAT_INVALIDATE (R331). -/
  | xlatInvalidate (region : Nat) (v : Word32)
  /-- XLAT_INVALIDATE_DONE (R331). -/
  | xlatInvalidateDone (region : Nat)
  /-- INTERLEAVE_CHANGE (R316). -/
  | interleaveChange (v : Word32)
  /-- INTERLEAVE_FILL_DONE (R316). -/
  | interleaveFillDone
  /-- MEM_CE_CLEAR (R313). -/
  | memCeClear (stack : Nat) (v : Word32)
  /-- LINK_SIGNAL_DETECT (R366). -/
  | linkSignalDetect (e : Nat)
  /-- AUTONEG_DONE (R367). -/
  | autonegDone (e : Nat) (peer200 : Bool) (peerVers : BitVec 2)
  /-- LINK_TRAIN_DONE (R349). -/
  | linkTrainDone (e : Nat) (lanes : BitVec 16)
  /-- LINK_ALIGN_DONE (R366). -/
  | linkAlignDone (e : Nat)
  /-- HELLO_RECEIVE (R366). -/
  | helloReceive (e : Nat) (hello : BitVec 64)
  /-- LINK_STATE_TIMEOUT (R366). -/
  | linkStateTimeout (e : Nat)
  /-- RETRAIN_PAUSE_END (R366). -/
  | retrainPauseEnd (e : Nat)
  /-- FLIT_RECEIVE (R352). -/
  | flitReceive (e : Nat) (lanes : List (List (BitVec 10)))
  /-- ACK_TIMER (R352). -/
  | ackTimer (e : Nat)
  /-- NAK_REPEAT (R352). -/
  | nakRepeat (e : Nat)
  /-- REPLAY_TIMEOUT (R352). -/
  | replayTimeout (e : Nat)
  /-- CREDIT_STALL (R364). -/
  | creditStall (e : Nat) (vc : BitVec 2) (cls : Bool)
  /-- TRANSPORT_PACKET_INGRESS (R356). -/
  | transportPacketIngress (e : Nat)
  /-- PACKET_EGRESS (R360). -/
  | packetEgress (k : Nat)
  /-- EGRESS_HOLD_EXPIRY (R364). -/
  | egressHoldExpiry (k : Nat)
  /-- FAILOVER_HOLD_END (R361). -/
  | failoverHoldEnd (dest : Nat)
  /-- MEM_REQUEST_TIMEOUT (R364). -/
  | memRequestTimeout (txid : BitVec 32)
  /-- LINK_DOWN (R365). -/
  | linkDown (e : Nat)
  /-- ROUTE_DISCOVERY (R363). -/
  | routeDiscovery (links : List TopoLink) (duplicates tn6 : List Nat)
  /-- CONTROL_REQUEST_TIMEOUT (R364). -/
  | controlRequestTimeout (peer : BitVec 15)
  /-- FAB_PORT_ENABLE (R366). -/
  | fabPortEnable (p : Nat) (v : Word32)
  /-- FAB_PORT_RETRAIN (R366). -/
  | fabPortRetrain (p : Nat) (v : Word32)
  /-- FAB_CNT_CLEAR (R356). -/
  | fabCntClear (p : Nat) (v : Word32)
  /-- MARGIN_START (R369). -/
  | marginStart (p : Nat) (v : Word32)
  /-- MARGIN_STOP (R370). -/
  | marginStop (p : Nat) (v : Word32)
  /-- MARGIN_POINT_DONE (R369). -/
  | marginPointDone (p : Nat) (errors : Nat)
  /-- DEVICE_ID_SET (R358). -/
  | deviceIdSet (v : Word32)
  /-- ROUTE_TABLE_READ (R363). -/
  | routeTableRead (v : Word32)
  /-- ROUTE_TABLE_WRITE (R363). -/
  | routeTableWrite (v : Word32)
  /-- FAB_LATE_CLEAR (R365). -/
  | fabLateClear (v : Word32)
  /-- XSYNC_ARRIVE_RECEIVE (R375). -/
  | xsyncArriveReceive (child : BitVec 15) (a : SyncPkt)
  /-- XSYNC_RELEASE_RECEIVE (R376). -/
  | xsyncReleaseReceive (a : SyncPkt)
  /-- XSYNC_RELEASE_WAIT_END (R376). -/
  | xsyncReleaseWaitEnd (zone : BitVec 3)
  /-- XSYNC_ABORT_RECEIVE (R378). -/
  | xsyncAbortReceive (sender : BitVec 15) (a : SyncPkt)
  /-- XSYNC_ARRIVE_REPEAT (R377). -/
  | xsyncArriveRepeat (zone : BitVec 3)
  /-- XSYNC_PEER_LOST (R378). -/
  | xsyncPeerLost (zone : BitVec 3) (peer : BitVec 15)
  /-- XSYNC_PROBE_RECEIVE (R381). -/
  | xsyncProbeReceive (sender : BitVec 15) (a : SyncPkt)
  /-- XSYNC_ECHO_RECEIVE (R381). -/
  | xsyncEchoReceive (sender : BitVec 15) (a : SyncPkt) (rtt : Nat)
  /-- XSYNC_ECHO_TIMEOUT (R381). -/
  | xsyncEchoTimeout (zone : BitVec 3)
  /-- XSYNC_WALK_MESSAGE (R382). -/
  | xsyncWalkMessage (zone : BitVec 3) (m : WalkMsg)
  /-- XSYNC_SWEEP_START (R384). -/
  | xsyncSweepStart (zone : BitVec 3) (v : Word32)
  /-- XSYNC_BREAK_REPORT (R383). -/
  | xsyncBreakReport (zone : BitVec 3) (index : Nat) (dev peer : BitVec 15) (edges maxPath : Nat)
  /-- FAB_XSYNC_LATE_CLEAR (R377). -/
  | fabXsyncLateClear (zone : BitVec 3) (v : Word32)
  /-- DOMAIN_IDLE_EXPIRY (R389). -/
  | domainIdleExpiry (dom : Nat)
  /-- DOMAIN_SWITCH_ON_DONE (R390). -/
  | domainSwitchOnDone (dom : Nat)
  /-- DOMAIN_REQUEST_WRITE (R389). -/
  | domainRequestWrite (off : Nat) (v : Word32)
  /-- POWER_SAMPLE (R403). -/
  | powerSample (watts : Nat)
  /-- MONITOR_CALIBRATION (R403). -/
  | monitorCalibration (watts : Nat)
  /-- PHASE_ENTRY_RECOMPUTE (R398). -/
  | phaseEntryRecompute (zone : BitVec 3) (phase : BitVec 8)
  /-- SHARE_RECOMPUTE (R397). -/
  | shareRecompute
  /-- CLOCK_CODE_STEP (R400). -/
  | clockCodeStep (region : Nat)
  /-- JUNCTION_SENSOR_READ (R405). -/
  | junctionSensorRead (die sensor : Nat) (temp : Int)
  /-- THERMAL_CAP_STEP (R406). -/
  | thermalCapStep (die : Nat)
  /-- HBM_TEMPERATURE_REPORT (R451). -/
  | hbmTemperatureReport (stack : Nat) (temp : Option Int)
  /-- THERMAL_TRIP (R407). -/
  | thermalTrip (die sensor : Nat) (temp : BitVec 8)
  /-- PWR_CAP_WRITE (R392). -/
  | pwrCapWrite (v : Word32)
  /-- PWR_EXCESS_CLEAR (R403). -/
  | pwrExcessClear (v : Word32)
  /-- SQ_TAIL_DOORBELL (R413). -/
  | sqTailDoorbell (q : Nat) (v : Word32)
  /-- CQ_HEAD_DOORBELL (R413). -/
  | cqHeadDoorbell (q : Nat) (v : Word32)
  /-- COMMAND_FETCH (R414). -/
  | commandFetch (q : Nat)
  /-- COALESCE_TIMEOUT (R415). -/
  | coalesceTimeout (q : Nat)
  /-- COMMAND_TIMEOUT (R422). -/
  | commandTimeout (q : Nat) (seq : BitVec 32)
  /-- ADMIN_QUEUE_ENABLE (R417). -/
  | adminQueueEnable (v : Word32)
  /-- BAR2_READ (R410). -/
  | bar2Read (off len : Nat)
  /-- BAR2_WRITE (R410). -/
  | bar2Write (off : Nat) (data : List Byte) (poison : Bool)
  /-- BAR0_BAD_ACCESS (R12). -/
  | bar0BadAccess
  /-- BAR0_PAIR_LOW_READ (R13). -/
  | bar0PairLowRead (off : Nat)
  /-- BAR0_PAIR_HIGH_WRITE (R13). -/
  | bar0PairHighWrite (off : Nat) (v : Word32)
  /-- BAR0_PAIR_LOW_WRITE (R13). -/
  | bar0PairLowWrite (off : Nat) (v : Word32)
  /-- REGISTER_WRITE (R14). -/
  | registerWrite (off : Nat) (v : Word32)
  /-- HOST_POWER_STATE (R408). -/
  | hostPowerState (p : HostPower)
  /-- IDENTIFY (R424). -/
  | identify (h : CmdHdr)
  /-- NEGOTIATE (R423). -/
  | negotiate (h : CmdHdr) (mask : BitVec 8)
  /-- SET_CONFIG (R424). -/
  | setConfig (h : CmdHdr) (dev size : BitVec 16) (zoneMap : BitVec 32)
  /-- QUEUE_CREATE (R424). -/
  | queueCreate (h : CmdHdr) (p : QueueParams)
  /-- QUEUE_DELETE (R417). -/
  | queueDelete (h : CmdHdr) (q : Nat)
  /-- TABLE_POOL (R424). -/
  | tablePool (h : CmdHdr) (base len : Nat)
  /-- MAP (R424). -/
  | map (h : CmdHdr) (p : MapParams)
  /-- UNMAP (R424). -/
  | unmap (h : CmdHdr) (asid : BitVec 16) (va len : Nat)
  /-- TRANSLATE (R424). -/
  | translate (h : CmdHdr) (asid : BitVec 16) (va : Nat)
  /-- COPY (R424). -/
  | copy (h : CmdHdr) (srcHost dstHost : Bool) (src dst len : Nat)
  /-- FILL (R424). -/
  | fill (h : CmdHdr) (dst : Nat) (pattern : Word) (len : Nat)
  /-- RESUME (R333). -/
  | resume (h : CmdHdr) (tile : BitVec 16) (ctx : Bool) (mask : BitVec 32)
  /-- PROOF (R431). -/
  | proof (h : CmdHdr) (ctxSel : BitVec 2) (asid : BitVec 12) (img : ImageSource)
  /-- LOAD (R426). -/
  | load (h : CmdHdr) (ctxSel : BitVec 2) (asid : BitVec 12) (img : ImageSource)
  /-- START (R424). -/
  | start (h : CmdHdr) (p : StartParams)
  /-- STOP (R262). -/
  | stop (h : CmdHdr) (zone : BitVec 3) (force any : Bool)
  /-- YIELD (R259). -/
  | yield (h : CmdHdr) (zone : BitVec 3) (any : Bool)
  /-- EVICT (R260). -/
  | evict (h : CmdHdr) (zone : BitVec 3) (any : Bool) (area len : Nat)
  /-- RESTORE (R261). -/
  | restore (h : CmdHdr) (ctxSel : BitVec 2) (area : Nat)
  /-- UNLOAD (R424). -/
  | unload (h : CmdHdr) (zone : BitVec 3)
  /-- CANCEL (R427). -/
  | cancel (h : CmdHdr) (zone : BitVec 3)
  /-- PRIORITY (R424). -/
  | priority (h : CmdHdr) (cls : Nat) (n : BitVec 8) (map : Option (List (BitVec 16)))
  /-- PAIR (R253). -/
  | pair (h : CmdHdr) (hostZone guest : BitVec 3) (budget : Option (BitVec 32))
  /-- UNPAIR (R424). -/
  | unpair (h : CmdHdr) (hostZone : BitVec 3)
  /-- GROUP_CREATE (R373). -/
  | groupCreate (h : CmdHdr) (zone : BitVec 3) (gid root : BitVec 16)
  /-- GROUP_DELETE (R424). -/
  | groupDelete (h : CmdHdr) (zone : BitVec 3)
  /-- GROUP_ABORT (R378). -/
  | groupAbort (h : CmdHdr) (zone : BitVec 3)
  /-- GROUP_SWEEP (R384). -/
  | groupSweep (h : CmdHdr) (zone : BitVec 3)
  /-- CAP (R392). -/
  | cap (h : CmdHdr) (watts : BitVec 16)
  /-- HINT (R395). -/
  | hint (h : CmdHdr) (entries : List Word)
  /-- DOMAIN (R389). -/
  | domain (h : CmdHdr) (dom : Nat) (off : Bool)
  /-- SAMPLE (R424). -/
  | sample (h : CmdHdr)
  /-- DUMP (R424). -/
  | dump (h : CmdHdr) (sel : BitVec 8) (zone : BitVec 3) (buf len : Nat)
  /-- EVENT_WAIT (R463). -/
  | eventWait (h : CmdHdr)
  /-- LOG_READ (R424). -/
  | logRead (h : CmdHdr) (buf len : Nat) (idx : BitVec 32)
  /-- LOG_CLEAR (R466). -/
  | logClear (h : CmdHdr) (idx : BitVec 32)
  /-- REPAIR (R35). -/
  | repair (h : CmdHdr) (tile : BitVec 16)
  /-- HALT (R474). -/
  | halt (h : CmdHdr) (scope : BitVec 3) (tile : BitVec 16) (ctx : Bool)
  /-- RUN (R476). -/
  | run (h : CmdHdr) (scope : BitVec 3) (tile : BitVec 16) (ctx : Bool)
  /-- STEP (R476). -/
  | step (h : CmdHdr) (tile : BitVec 16) (ctx : Bool) (n : BitVec 32)
  /-- MEM_READ (R478). -/
  | memRead (h : CmdHdr) (p : DbgMem)
  /-- MEM_WRITE (R478). -/
  | memWrite (h : CmdHdr) (p : DbgMem) (data : Option (List Byte))
  /-- RING_READ (R479). -/
  | ringRead (h : CmdHdr) (tile : BitVec 16) (ctx : Bool) (ring buf : Nat)
  /-- STATE_READ (R480). -/
  | stateRead (h : CmdHdr) (item : BitVec 8) (tile : BitVec 16) (inst buf : Nat)
  /-- BREAK (R477). -/
  | breakSet (h : CmdHdr) (tile : BitVec 16) (slot : Nat) (flags : BitVec 8) (addr : Word)
  /-- REG_READ (R424). -/
  | regRead (h : CmdHdr) (off : Nat)
  /-- REG_WRITE (R424). -/
  | regWrite (h : CmdHdr) (off : Nat) (v : Word32)
  /-- POWER_ON_RESET (R432). -/
  | powerOnReset
  /-- PG_AON_FALL (R493). -/
  | pgAonFall
  /-- PERST_ASSERT (R436). -/
  | perstAssert
  /-- PERST_DEASSERT (R439). -/
  | perstDeassert
  /-- PG_FALL (R450). -/
  | pgFall (input : Nat)
  /-- PG_TIMEOUT (R439). -/
  | pgTimeout
  /-- BOOT_SEQUENCE (R439). -/
  | bootSequence (env : BootEnv)
  /-- BOOT_FLASH_READ_TIMEOUT (R453). -/
  | bootFlashReadTimeout (slot : Nat)
  /-- WARM_RESET (R435). -/
  | warmReset (v : Word32)
  /-- HOT_RESET (R435). -/
  | hotReset
  /-- FUNCTION_LEVEL_RESET (R435). -/
  | functionLevelReset
  /-- RESET_KEY_ARM (R432). -/
  | resetKeyArm (v : Word32)
  /-- REGION_RESET (R432). -/
  | regionReset (v : Word32)
  /-- TILE_RESET (R432). -/
  | tileReset (v : Word32)
  /-- CONTEXT_RESET (R433). -/
  | contextReset (v : Word32)
  /-- RECOVERY_BOOT_START (R443). -/
  | recoveryBootStart (v : Word32)
  /-- RECOVERY_BOOT_DATA (R443). -/
  | recoveryBootData (v : Word32)
  /-- RECOVERY_BOOT_DONE (R443). -/
  | recoveryBootDone (v : Word32)
  /-- RECOVERY_TRANSFER_STALL (R443). -/
  | recoveryTransferStall
  /-- MFP_SELECT (R448). -/
  | mfpSelect (n : Nat) (v : Word32) (busy : Bool)
  /-- MFP_PENDING_SWITCH (R449). -/
  | mfpPendingSwitch (n : Nat)
  /-- MFP_PARK_END (R448). -/
  | mfpParkEnd (n : Nat)
  /-- INPUT_FILTER_CHANGE (R450). -/
  | inputFilterChange (n : Nat) (level : Bool)
  /-- EXT_FAULT_CLEAR (R451). -/
  | extFaultClear (v : Word32)
  /-- REGULATOR_REPORT (R451). -/
  | regulatorReport (rep : ExtReport)
  /-- PMBUS_TIMEOUT (R453). -/
  | pmbusTimeout (unit : Nat)
  /-- SMBUS_TIMEOUT (R453). -/
  | smbusTimeout (unit : Nat)
  /-- SPI_TIMEOUT (R453). -/
  | spiTimeout (unit : Nat)
  /-- LOCKSTEP_MISMATCH (R29). -/
  | lockstepMismatch
  /-- ENGINE_PARITY_ERROR (R455). -/
  | engineParityError (t : TileId) (ctx : Bool) (eng store : Nat)
  /-- RECOVERY_ACTION_DONE (R459). -/
  | recoveryActionDone (hd : HandlerId) (ok spareOk : Bool)
  /-- RECOVERY_WINDOW_TIMEOUT (R457). -/
  | recoveryWindowTimeout (hd : HandlerId) (silent : Bool)
  /-- ALARM_DELIVERY (R467). -/
  | alarmDelivery
  /-- RAS_HOSTERR_CLEAR (R12). -/
  | rasHosterrClear (v : Word32)
  /-- TAP_RESET (R471). -/
  | tapReset
  /-- TAP_EXTEST (R471). -/
  | tapExtest
  /-- DBGACC_POLL (R472). -/
  | dbgaccPoll
  /-- DBGACC_REG_READ (R472). -/
  | dbgaccRegRead (a : DbgAcc)
  /-- DBGACC_REG_WRITE (R472). -/
  | dbgaccRegWrite (a : DbgAcc)
  /-- DBGACC_READ8 (R478). -/
  | dbgaccRead8 (a : DbgAcc)
  /-- DBGACC_WRITE8 (R478). -/
  | dbgaccWrite8 (a : DbgAcc)
  /-- DBGACC_HALT (R474). -/
  | dbgaccHalt (a : DbgAcc)
  /-- DBGACC_RUN (R476). -/
  | dbgaccRun (a : DbgAcc)
  /-- DBGACC_STEP (R476). -/
  | dbgaccStep (a : DbgAcc)
  /-- DBGACC_HOLD (R473). -/
  | dbgaccHold
  /-- DBGACC_RELEASE (R473). -/
  | dbgaccRelease
  /-- DBGACC_RESERVED (R472). -/
  | dbgaccReserved
  /-- TRACE_WRITE (R482). -/
  | traceWrite (region cluster : Nat)
  /-- TRACE_READ_CAPTURE (R485). -/
  | traceReadCapture (region : Nat)
  /-- TRACE_LOST_CLEAR (R484). -/
  | traceLostClear (region : Nat) (v : Word32)
  /-- TRACE_QDROP_CLEAR (R468). -/
  | traceQdropClear (region cluster : Nat) (v : Word32)
  /-- PG_INPUT_RISE (R439). -/
  | pgInputRise (input : Nat)
  /-- QUIESCE_TIMEOUT (R456). -/
  | quiesceTimeout (t : TileId) (ctx : Bool)
  /-- PCIE_COMPLETION_TIMEOUT (R408). -/
  | pcieCompletionTimeout (req : PcieReq)
  /-- HOST_READ_COMPLETION (R408). -/
  | hostReadCompletion (tag : BitVec 32) (data : Option (List Byte)) (poison : Bool)
  /-- SWEEP_REPEAT (R384). -/
  | sweepRepeat (zone : BitVec 3) (rebuilt : Bool)
  /-- RECORD_AREA_FLASH_TIMEOUT (R453). -/
  | recordAreaFlashTimeout
deriving DecidableEq, Repr

end Sys2Proof
end

