-- ==== Sys2Proof/Machine/Bits.lean ====
section
/-! DEFINITION. Sparse maps, bit fields, bytes and the CRC-32C (R11, R342). -/

namespace Sys2Proof.Machine

/-- What unit `k` of a sparse family holds. -/
def SMap.get {α : Type} (d : α) : SMap α → Nat → α
  | [], _ => d
  | (j, v) :: r, k => if k = j then v else SMap.get d r k

/-- Insert an entry before the first with a greater key. -/
def SMap.ins {α : Type} (k : Nat) (v : α) : SMap α → SMap α
  | [] => [(k, v)]
  | (j, w) :: r => if k < j then (k, v) :: (j, w) :: r else (j, w) :: SMap.ins k v r

/-- The family with unit `k` holding `v`; a value equal to the default is not listed. -/
def SMap.put {α : Type} [DecidableEq α] (d : α) (m : SMap α) (k : Nat) (v : α) : SMap α :=
  let rest := m.filter fun e => decide (e.1 ≠ k)
  if v = d then rest else SMap.ins k v rest

/-- Bits lo + len − 1 down to lo of a natural (R11). -/
def bits (n lo len : Nat) : Nat := (n >>> lo) % 2 ^ len

/-- Bit i of a natural. -/
def bitAt (n i : Nat) : Bool := n.testBit i

/-- A truth value as a bit. -/
def b2n (b : Bool) : Nat := if b then 1 else 0

/-- `n` little-endian bytes of a natural (R11). -/
def leBytes : Nat → Nat → List Byte
  | 0, _ => []
  | n + 1, v => BitVec.ofNat 8 v :: leBytes n (v >>> 8)

/-- The natural a little-endian byte list spells. -/
def leNat : List Byte → Nat
  | [] => 0
  | b :: r => b.toNat + 256 * leNat r

/-- `n` bytes of a list from offset `off`, zero beyond its end. -/
def sliceBytes (l : List Byte) (off n : Nat) : List Byte :=
  let m := (l.drop off).take n
  m ++ List.replicate (n - m.length) 0

/-- A little-endian field of `n` bytes at offset `off`. -/
def fieldAt (l : List Byte) (off n : Nat) : Nat := leNat (sliceBytes l off n)

/-- A natural reduced to a signed integer of `w` bits. -/
def sintOf (w n : Nat) : Int :=
  let m := n % 2 ^ w
  if m < 2 ^ (w - 1) then (m : Int) else (m : Int) - ((2 ^ w : Nat) : Int)

/-- ⌈a / b⌉. -/
def ceilDiv (a b : Nat) : Nat := (a + b - 1) / b

/-- Saturating increment of a counter of `w` bits. -/
def satInc {w : Nat} (c : BitVec w) : BitVec w := if c = BitVec.allOnes w then c else c + 1

/-- One bit of the reflected CRC-32C (R342). -/
def crcBit (c : BitVec 32) : BitVec 32 := if c.getLsbD 0 then (c >>> 1) ^^^ 0x82F63B78#32 else c >>> 1

/-- One byte of the CRC-32C. -/
def crcByte (c : BitVec 32) (b : Byte) : BitVec 32 :=
  crcBit (crcBit (crcBit (crcBit (crcBit (crcBit (crcBit (crcBit (c ^^^ b.zeroExtend 32))))))))

/-- CRC-32C of a byte list: initial value and final XOR all ones (R342). -/
def crc32c (l : List Byte) : BitVec 32 := ~~~ (l.foldl crcByte 0xFFFFFFFF#32)

/-- Drops the first element a test accepts. -/
def eraseFirst {α : Type} (p : α → Bool) : List α → List α
  | [] => []
  | a :: r => if p a then r else a :: eraseFirst p r

/-- Replaces the elements a test accepts. -/
def updateWhere {α : Type} (p : α → Bool) (f : α → α) (l : List α) : List α :=
  l.map fun a => if p a then f a else a

/-- Number the elements of a list from i. -/
def numbered {α : Type} : Nat → List α → List (Nat × α)
  | _, [] => []
  | i, a :: r => (i, a) :: numbered (i + 1) r

/-- The sum of fields placed at byte offsets: (offset, value) pairs, offset counted from `base`. -/
def packAt (base : Nat) (l : List (Nat × Nat)) : Nat :=
  l.foldl (fun a f => a + f.2 * 2 ^ (8 * (f.1 - base))) 0

end Sys2Proof.Machine
end

