-- ==== Sys2Proof/Machine/Flags.lean ====
section
/-! DEFINITION. Number formats, rounding and the exception flags (R103–R106, R113–R117, R119, R121–R123). A value is an exact
dyadic number or a special; a flag set is a number with NV = 16, DZ = 8, OF = 4, UF = 2, NX = 1. -/

namespace Sys2Proof.Machine

def fNV : Nat := 16
def fDZ : Nat := 8
def fOF : Nat := 4
def fUF : Nat := 2
def fNX : Nat := 1

/-- How a format treats its top exponent (R105). -/
inductive FpKind where
  | ieee
  | h8
  | plain
deriving DecidableEq, Repr

/-- A floating-point format: exponent bits, fraction bits, bias (R103). -/
structure FpFmt where
  eb : Nat
  fb : Nat
  bias : Nat
  kind : FpKind
deriving DecidableEq, Repr

def fmtB64 : FpFmt := ⟨11, 52, 1023, .ieee⟩
def fmtB32 : FpFmt := ⟨8, 23, 127, .ieee⟩
def fmtB16 : FpFmt := ⟨5, 10, 15, .ieee⟩
def fmtBf16 : FpFmt := ⟨8, 7, 127, .ieee⟩
def fmtH8 : FpFmt := ⟨4, 3, 8, .h8⟩
def fmtH8W : FpFmt := ⟨5, 2, 15, .ieee⟩
def fmtH6 : FpFmt := ⟨3, 2, 3, .plain⟩
def fmtH4 : FpFmt := ⟨2, 1, 1, .plain⟩

/-- A decoded element: a NaN with its sign, whether it signals, and its fraction aligned to 52 bits; an infinity; or the
finite value (−1)^s · m · 2^e. -/
inductive Num where
  | nan (s sig : Bool) (pay : Nat)
  | inf (s : Bool)
  | fin (s : Bool) (m : Nat) (e : Int)
deriving DecidableEq, Repr

def FpFmt.width (F : FpFmt) : Nat := 1 + F.eb + F.fb
/-- The exponent of the smallest normal value. -/
def FpFmt.emin (F : FpFmt) : Int := 1 - (F.bias : Int)
/-- The weight of the last place of a subnormal, as a power of two. -/
def FpFmt.qmin (F : FpFmt) : Int := F.emin - (F.fb : Int)

/-- The value of an encoding (R104, R105). Payloads of H8 and H8W NaNs are not kept (R121). A payload is kept at the top of the
fraction, so that a wider format gets zeros below it (DESIGN CHOICE, assumption 82). -/
def FpFmt.decode (F : FpFmt) (code : Nat) : Num :=
  let s := code.testBit (F.eb + F.fb)
  let E := bits code F.fb F.eb
  let f := bits code 0 F.fb
  let top := E = 2 ^ F.eb - 1
  match F.kind with
  | .ieee =>
    if top ∧ f = 0 then .inf s
    else if top then .nan s (!f.testBit (F.fb - 1)) (if F.fb ≤ 2 then 2 ^ 51 else f <<< (52 - F.fb))
    else if E = 0 then .fin s f F.qmin
    else .fin s (2 ^ F.fb + f) ((E : Int) - F.bias - F.fb)
  | .h8 =>
    if top ∧ f = 2 ^ F.fb - 1 then .nan s false (2 ^ 51)
    else if E = 0 then .fin s f F.qmin
    else .fin s (2 ^ F.fb + f) ((E : Int) - F.bias - F.fb)
  | .plain =>
    if E = 0 then .fin s f F.qmin else .fin s (2 ^ F.fb + f) ((E : Int) - F.bias - F.fb)

/-- m · 2^k for an integer k, the bits below the units dropped. -/
def shiftInt (m : Nat) (k : Int) : Nat := if 0 ≤ k then m <<< k.toNat else m >>> (-k).toNat

/-- Whether n · 2^q < m · 2^e. -/
def dyLt (n : Nat) (q : Int) (m : Nat) (e : Int) : Bool :=
  let k := min q e
  n <<< (q - k).toNat < m <<< (e - k).toNat

/-- The largest finite value as a significand and an exponent (R106). -/
def FpFmt.maxFin (F : FpFmt) : Nat × Int :=
  match F.kind with
  | .ieee => (2 ^ (F.fb + 1) - 1, (2 ^ F.eb - 2 : Nat) - (F.bias : Int) - F.fb)
  | .h8 => (2 ^ (F.fb + 1) - 2, (2 ^ F.eb - 1 : Nat) - (F.bias : Int) - F.fb)
  | .plain => (2 ^ (F.fb + 1) - 1, (2 ^ F.eb - 1 : Nat) - (F.bias : Int) - F.fb)

/-- The encoding of a representable finite value. -/
def FpFmt.encode (F : FpFmt) (s : Bool) (n : Nat) (q : Int) : Nat :=
  let sg := b2n s * 2 ^ (F.eb + F.fb)
  if n = 0 then sg
  else
    let E := (Nat.log2 n : Int) + q
    if E < F.emin then sg + shiftInt n (q - F.qmin)
    else sg + (E + F.bias).toNat * 2 ^ F.fb + (shiftInt n (q - (E - F.fb)) - 2 ^ F.fb)

/-- ±largest finite. -/
def FpFmt.maxCode (F : FpFmt) (s : Bool) : Nat := F.encode s F.maxFin.1 F.maxFin.2
/-- ±infinity of an IEEE-style format. -/
def FpFmt.infCode (F : FpFmt) (s : Bool) : Nat := b2n s * 2 ^ (F.eb + F.fb) + (2 ^ F.eb - 1) * 2 ^ F.fb
/-- A quiet NaN with the high payload bits that fit (R116); H8 and H8W have one NaN a sign that is written (R105). -/
def FpFmt.nanCode (F : FpFmt) (s : Bool) (pay : Nat) : Nat :=
  match F.kind with
  | .h8 => b2n s * 2 ^ (F.eb + F.fb) + 2 ^ (F.eb + F.fb) - 1
  | _ => F.infCode s + ((2 ^ (F.fb - 1)) ||| (if F.fb ≤ 2 then 0 else bits pay (52 - F.fb) F.fb))
/-- The default NaN (R116). -/
def FpFmt.defNan (F : FpFmt) : Nat := F.nanCode false 0

/-- Whether a truncated magnitude with this remainder is rounded up, by direction code: 0 RNE, 1 RNA, 2 RTZ, 3 RUP, 4 RDN
(R114). -/
def roundsUp (dir : Nat) (s odd : Bool) (rem half : Nat) : Bool :=
  match dir with
  | 0 => rem > half || (rem = half && odd)
  | 1 => rem ≥ half
  | 2 => false
  | 3 => !s && rem ≠ 0
  | _ => s && rem ≠ 0

/-- m · 2^e rounded to a multiple of 2^q: the multiple, and whether bits were lost. -/
def roundAt (dir : Nat) (s : Bool) (m : Nat) (e q : Int) : Nat × Bool :=
  if q ≤ e then (m <<< (e - q).toNat, false)
  else
    let k := (q - e).toNat
    let n := m >>> k
    let r := m % 2 ^ k
    (if roundsUp dir s (n % 2 = 1) r (2 ^ (k - 1)) && decide (r ≠ 0) then n + 1 else n, decide (r ≠ 0))

/-- An overflowed result, by direction: the code. `sat` is the saturate option of H8W (R121). -/
def FpFmt.overflowCode (F : FpFmt) (dir : Nat) (s sat : Bool) : Nat :=
  match F.kind with
  | .ieee =>
    if sat ∨ dir = 2 ∨ (dir = 3 ∧ s) ∨ (dir = 4 ∧ ¬ s) then F.maxCode s else F.infCode s
  | _ => F.maxCode s

/-- Round (−1)^s · m · 2^e into a format: the code and the flags (R115, R119, R121). -/
def FpFmt.round (F : FpFmt) (dir : Nat) (s : Bool) (m : Nat) (e : Int) (sat : Bool := false) : Nat × Nat :=
  if m = 0 then (F.encode s 0 0, 0)
  else
    let qU := (Nat.log2 m : Int) + e - F.fb
    let u := roundAt dir s m e qU
    if dyLt F.maxFin.1 F.maxFin.2 u.1 qU then (F.overflowCode dir s sat, fOF + fNX)
    else
      let q := max qU F.qmin
      let b := roundAt dir s m e q
      let tiny := dyLt u.1 qU 1 F.emin
      (F.encode s b.1 q, if b.2 then (if tiny then fUF + fNX else fNX) else 0)

/-- Stochastic rounding with the 24-bit uniform u (R123): away from the lower neighbour when u is below the truncated
fraction. The lower neighbour, and whether the upper one is taken. -/
def srPick (m : Nat) (e q : Int) (u : Nat) : Nat × Bool :=
  if q ≤ e then (m <<< (e - q).toNat, false)
  else
    let k := (q - e).toNat
    let n := m >>> k
    let t := (m % 2 ^ k) * 2 ^ 24 / 2 ^ k
    (if u < t then n + 1 else n, decide (m % 2 ^ k ≠ 0))

/-- Round stochastically into a format (R115, R121, R123). -/
def FpFmt.roundSr (F : FpFmt) (s : Bool) (m : Nat) (e : Int) (u : Nat) : Nat × Nat :=
  if m = 0 then (F.encode s 0 0, 0)
  else
    let q := max ((Nat.log2 m : Int) + e - F.fb) F.qmin
    let b := srPick m e q u
    if dyLt F.maxFin.1 F.maxFin.2 b.1 q then (F.maxCode s, fOF + fNX)
    else (F.encode s b.1 q, if b.2 then (if dyLt b.1 q 1 F.emin then fUF + fNX else fNX) else 0)

/-! ### Conversions of one value (R121, R122) -/

/-- How a conversion rounds: by a direction, or stochastically with the element's uniform (R120). -/
inductive RMode where
  | dir (d : Nat)
  | sr (u : Nat)
deriving DecidableEq, Repr

/-- Round into a floating-point format by a mode. -/
def FpFmt.roundMode (F : FpFmt) (mode : RMode) (s : Bool) (m : Nat) (e : Int) (sat : Bool) : Nat × Nat :=
  match mode with
  | .dir d => F.round d s m e sat
  | .sr u => F.roundSr s m e u

/-- Convert a value into a floating-point format (R121). -/
def FpFmt.convert (F : FpFmt) (mode : RMode) (sat : Bool) : Num → Nat × Nat
  | .nan s sig pay =>
    match F.kind with
    | .plain => (0, fNV)
    | _ => (F.nanCode s pay, if sig then fNV else 0)
  | .inf s =>
    match F.kind with
    | .ieee => (F.infCode s, 0)
    | .h8 => (F.nanCode s 0, fNV)
    | .plain => (F.maxCode s, fNV)
  | .fin s m e => F.roundMode mode s m e sat

/-- Convert a value into a w-bit integer (R122). The code is two's complement. -/
def intConvert (w : Nat) (mode : RMode) : Num → Nat × Nat
  | .nan _ _ _ => (0, fNV)
  | .inf s => (if s then 2 ^ (w - 1) else 2 ^ (w - 1) - 1, fNV)
  | .fin s m e =>
    let r := match mode with
      | .dir d => roundAt d s m e 0
      | .sr u => srPick m e 0 u
    if s then (if r.1 > 2 ^ (w - 1) then (2 ^ (w - 1), fNV) else ((2 ^ w - r.1) % 2 ^ w, if r.2 then fNX else 0))
    else if r.1 ≥ 2 ^ (w - 1) then (2 ^ (w - 1) - 1, fNV) else (r.1, if r.2 then fNX else 0)

/-- The value of a w-bit two's-complement code (R104). -/
def intDecode (w code : Nat) : Num :=
  if code.testBit (w - 1) then .fin true (2 ^ w - code % 2 ^ w) 0 else .fin false (code % 2 ^ w) 0

end Sys2Proof.Machine
end

