-- ==== Sys2Proof/Machine/Formats.lean ====
section
/-! DEFINITION. Element formats as the engines hold them: format codes (R207), packing (R107, R108), group scaling
(R109–R112) and the conversion of whole arrays (R118–R126). -/

namespace Sys2Proof.Machine

/-- What an element of a format is: floating point, or an integer of some width. -/
inductive Elem where
  | fp (F : FpFmt)
  | int (w : Nat)
deriving DecidableEq, Repr

/-- The element format of a FMT code (R207). -/
def elemOf (code : Nat) : Elem :=
  match code with
  | 0x0 => .fp fmtB16
  | 0x1 => .fp fmtBf16
  | 0x2 | 0x8 => .fp fmtH8
  | 0x3 | 0x9 => .fp fmtH8W
  | 0x4 | 0xA => .fp fmtH6
  | 0x5 | 0xB => .fp fmtH4
  | 0x6 | 0xC => .int 8
  | 0x7 | 0xD => .int 4
  | 0xE => .fp fmtB32
  | _ => .fp fmtB64

/-- A FMT code of a group-scaled format (R207). -/
def isGroup (code : Nat) : Bool := decide (0x8 ≤ code) && decide (code ≤ 0xD)

def Elem.width : Elem → Nat
  | .fp F => F.width
  | .int w => w

/-- The exact value of an element without its plate (R104). -/
def Elem.decode : Elem → Nat → Num
  | .fp F, n => F.decode n
  | .int w, n => intDecode w n

/-! ### Packing (R107, R108) -/

/-- Bytes that hold n elements of w bits, dense. -/
def denseBytes (w n : Nat) : Nat := if w = 6 then 3 * ceilDiv n 4 else ceilDiv (w * n) 8

/-- Bytes of whole lines that hold n elements in the scratchpad: 128 H6 elements to a line (R108). -/
def lineBytes (w n : Nat) : Nat := if w = 6 then 128 * ceilDiv n 128 else 128 * ceilDiv (ceilDiv (w * n) 8) 128

/-- The code of element i in bytes that start with element 0; `line` selects the line layout of H6. -/
def elemAt (w : Nat) (line : Bool) (l : List Byte) (i : Nat) : Nat :=
  match w with
  | 4 => bits (fieldAt l (i / 2) 1) (4 * (i % 2)) 4
  | 6 =>
    let base := if line then 128 * (i / 128) + 3 * (i % 128 / 4) else 3 * (i / 4)
    bits (fieldAt l base 3) (6 * (i % 4)) 6
  | w => fieldAt l (i * (w / 8)) (w / 8)

/-- Codes taken `k` at a time into one little-endian field of `n` bytes, each code `w` bits. -/
def packBy (fuel k n w : Nat) (l : List Nat) : List Byte :=
  match fuel, l with
  | _, [] => []
  | 0, _ => []
  | f + 1, l =>
    let field := (l.take k).foldr (fun c a => c % 2 ^ w + 2 ^ w * a) 0
    leBytes n field ++ packBy f k n w (l.drop k)

/-- Pad with zero bytes to n bytes. -/
def padTo (n : Nat) (l : List Byte) : List Byte := l ++ List.replicate (n - l.length) 0

/-- The 96 packed bytes and 32 zero bytes of each line of H6 (R108). -/
def packH6Lines : Nat → List Nat → List Byte
  | 0, _ => []
  | _, [] => []
  | f + 1, l => padTo 128 (packBy 32 4 3 6 (l.take 128)) ++ packH6Lines f (l.drop 128)

/-- Elements packed dense (R107). -/
def packDense (w : Nat) (l : List Nat) : List Byte :=
  match w with
  | 4 => packBy l.length 2 1 4 l
  | 6 => packBy l.length 4 3 6 l
  | w => packBy l.length 1 (w / 8) w l

/-- Elements packed as Burin and Stylus hold them, filled with zero to a whole line. -/
def packLines (w : Nat) (l : List Nat) : List Byte :=
  if w = 6 then packH6Lines l.length l else padTo (lineBytes w l.length) (packDense w l)

/-! ### Group scaling (R110–R112) -/

/-- A value times 2^k. -/
def Num.scale (k : Int) : Num → Num
  | .fin s m e => .fin s m (e + k)
  | x => x

/-- The value of an element under its plate (R110). DESIGN CHOICE (assumption 82): the quiet NaN of a plate of 255 has a zero payload. -/
def Elem.decodeGroup (E : Elem) (plate code : Nat) : Num :=
  if plate = 255 then .nan false false 0
  else (E.decode code).scale ((plate : Int) - 127)

/-- The exponent of the largest power of two not above the element format's largest finite value (R111). -/
def Elem.emax : Elem → Int
  | .fp F => (Nat.log2 F.maxFin.1 : Int) + F.maxFin.2
  | .int w => (w : Int) - 2

def Num.special : Num → Bool
  | .fin _ _ _ => false
  | _ => true

/-- floor(log2 |x|) of the largest finite magnitude of a list, none where all are zero. -/
def topExp : List Num → Option Int
  | [] => none
  | .fin _ m e :: r =>
    if m = 0 then topExp r
    else match topExp r with
      | some t => some (max t ((Nat.log2 m : Int) + e))
      | none => some ((Nat.log2 m : Int) + e)
  | _ :: r => topExp r

/-- Round one scaled element into the element format of a group (R112): `loose` where the plate was clamped or supplied. -/
def Elem.encodeScaled (E : Elem) (mode : RMode) (loose : Bool) (x : Num) : Nat × Nat :=
  match E with
  | .int w => intConvert w mode x
  | .fp F =>
    let r := F.convert mode true x
    (r.1, if r.2 &&& fOF ≠ 0 ∧ ¬ loose then fNX else r.2)

/-- The OR of the flags of conversion results. -/
def orFlags (l : List (Nat × Nat)) : Nat := l.foldl (fun a r => a ||| r.2) 0

/-- Encode one group: the plate, the codes and the flags (R111, R112). The mode of element j is `mode j`. -/
def Elem.encodeGroup (E : Elem) (supply : Option Nat) (mode : Nat → RMode) (xs : List Num) : Nat × List Nat × Nat :=
  let zeros := xs.map fun _ => 0
  let enc (p : Nat) (loose : Bool) : Nat × List Nat × Nat :=
    let rs := (numbered 0 xs).map fun x => E.encodeScaled (mode x.1) loose (x.2.scale (127 - (p : Int)))
    (p, rs.map (·.1), orFlags rs)
  if xs.any Num.special then (255, zeros, fNV)
  else match supply with
    | some 255 => (255, zeros, fNV)
    | some p => enc p true
    | none =>
      match topExp xs with
      | none => enc 0 false
      | some ea =>
        let p := ea - E.emax + 127
        enc (min 254 (max 0 p)).toNat (decide (p < 0) || decide (254 < p))

/-! ### Arrays (R118–R126) -/

/-- A conversion's parameters: the format codes, the rounding of element i, saturation, and a supplied plate. -/
structure ConvArgs where
  sfmt : Nat
  dfmt : Nat
  mode : Nat → RMode
  sat : Bool
  supply : Option Nat

/-- Convert one value into a plain format (R121, R122). -/
def convPlain (a : ConvArgs) (i : Nat) (x : Num) : Nat × Nat :=
  match elemOf a.dfmt with
  | .fp F => F.convert (a.mode i) a.sat x
  | .int w => intConvert w (a.mode i) x

/-- A copied encoding: a signalling NaN of an IEEE format is quieted, one of H8W becomes 0x7E or 0xFE, both with NV
(R124). -/
def copyElem (E : Elem) (code : Nat) : Nat × Nat :=
  match E with
  | .fp F =>
    match F.decode code with
    | .nan s true pay => (F.nanCode s pay, fNV)
    | _ => (code, 0)
  | .int _ => (code, 0)

/-- Groups of 32 values, the last filled with +0 (R109). -/
def groupsOf : Nat → List Num → List (List Num)
  | 0, _ => []
  | _, [] => []
  | f + 1, l => (l.take 32 ++ List.replicate (32 - (l.take 32).length) (.fin false 0 0)) :: groupsOf f (l.drop 32)

/-- The codes of `n` elements, the plates where the destination is group-scaled, and the flags, from the source's codes
and plates (R118–R125). Codes beyond the n-th of a last group are +0 codes. -/
def convertArray (a : ConvArgs) (codes plates : List Nat) : List Nat × List Nat × Nat :=
  let S := elemOf a.sfmt
  let D := elemOf a.dfmt
  if a.sfmt = a.dfmt ∧ (isGroup a.dfmt = false ∨ a.supply = none) then
    let bad (i : Nat) : Bool := isGroup a.sfmt && decide (plates.getD (i / 32) 0 = 255)
    let rs := (numbered 0 codes).map fun c => if bad c.1 then (c.2, 0) else copyElem S c.2
    (rs.map (·.1), if isGroup a.dfmt then plates else [], orFlags rs)
  else
    let xs := (numbered 0 codes).map fun c =>
      if isGroup a.sfmt then S.decodeGroup (plates.getD (c.1 / 32) 0) c.2 else S.decode c.2
    if isGroup a.dfmt then
      let gs := (numbered 0 (groupsOf xs.length xs)).map fun g =>
        D.encodeGroup a.supply (fun j => a.mode (32 * g.1 + j)) g.2
      (gs.flatMap fun g => g.2.1, gs.map (·.1), gs.foldl (fun f g => f ||| g.2.2) 0)
    else
      let rs := (numbered 0 xs).map fun x => convPlain a x.1 x.2
      (rs.map (·.1), [], orFlags rs)

/-! ### The native generator (R152–R157) -/

def rotl32 (v n : Nat) : Nat := (v <<< n ||| v >>> (32 - n)) % 2 ^ 32

/-- The four words after `r` rounds from round `10 − r`, the words in the order x[0]..x[3]. -/
def stippleRounds (k : Nat → Nat) : Nat → Nat × Nat × Nat × Nat → Nat × Nat × Nat × Nat
  | 0, x => x
  | n + 1, (x0, x1, x2, x3) =>
    let r := 9 - n
    let rot (a b c d : Nat) : Nat := match r % 4 with
      | 0 => a
      | 1 => b
      | 2 => c
      | _ => d
    let w := (k (r % 4) + (r + 1) * 0x9E3779B9) % 2 ^ 32
    let y0 := (x0 + x1 + w) % 2 ^ 32
    let y3 := rotl32 (x3 ^^^ y0) (rot 16 12 8 20)
    let y2 := (x2 + y3) % 2 ^ 32
    let y1 := rotl32 (x1 ^^^ y2) (rot 4 24 12 28)
    stippleRounds k n (y1, y2, y3, y0 * 0x10013 % 2 ^ 32)

/-- One evaluation Y = G(K, t:d), bits 127:0 (R152, R153). -/
def stippleG (key : BitVec 128) (stream block : Word) : BitVec 128 :=
  let k (i : Nat) : Nat := bits key.toNat (32 * i) 32
  let x := stippleRounds k 10
    (bits block.toNat 0 32, bits block.toNat 32 32, bits stream.toNat 0 32, bits stream.toNat 32 32)
  BitVec.ofNat 128 ((x.1 + k 0) % 2 ^ 32 + (x.2.1 + k 1) % 2 ^ 32 * 2 ^ 32 +
    (x.2.2.1 + k 2) % 2 ^ 32 * 2 ^ 64 + (x.2.2.2 + k 3) % 2 ^ 32 * 2 ^ 96)

/-- The RAW32 draw of element e (R156). -/
def drawRaw32 (key : BitVec 128) (t e : Word) : Nat := bits (stippleG key t (e >>> 2)).toNat (32 * (e.toNat % 4)) 32
/-- The 24-bit uniform of element e (R156). -/
def drawU24 (key : BitVec 128) (t e : Word) : Nat := drawRaw32 key t e >>> 8
/-- The Bernoulli halfword of element e (R156). -/
def drawHalf (key : BitVec 128) (t e : Word) : Nat := bits (stippleG key t (e >>> 3)).toNat (16 * (e.toNat % 8)) 16

/-- The rounding of element i under a MODE field (R120): 0 RNE, 1 RTZ, 2 SR, 3 CTX with direction rm. -/
def convMode (mode rm dfmt : Nat) (key : BitVec 128) (t e0 : Word) (i : Nat) : RMode :=
  match mode with
  | 0 => .dir 0
  | 1 => .dir 2
  | 2 => .sr (drawU24 key t (e0 + BitVec.ofNat 64 i))
  | _ => .dir (if dfmt ≤ 1 ∨ dfmt ≥ 0xE then rm else 0)

end Sys2Proof.Machine
end

