-- ==== Sys2Proof/Machine/Oz8.lean ====
section
/-! DEFINITION. The OZ8 instruction word (R171–R195, R207–R236): the fields whose values the manual enumerates, and the decoder of
a word, by which the scalar core tells an illegal instruction from every other (R172). -/

namespace Sys2Proof.Machine

/-- Lane width in bits of a TYPE (R215). -/
def laneBits (ty : BitVec 2) : Nat := if ty.getLsbD 0 then 64 else 32
def typeFloat (ty : BitVec 2) : Bool := !ty.getLsbD 1

/-- The checks of the vector format in D (R215): the TYPE, the SUB, unused sources, the mask field, and whether the
instruction may be masked. -/
def vecOk (f : VecF) (ty sub useB useC mask : Bool) : Bool :=
  ty && sub && (useB || f.vb = 0) && (useC || f.vc = 0) && (f.mv || f.vm = 0) && (mask || !f.mv)

/-- A floating-point instruction with SUB 0. -/
def fpOk (f : VecF) (useB useC : Bool) : Bool := vecOk f (typeFloat f.ty) (f.sub = 0) useB useC true
/-- An integer instruction with a SUB of at most `n`. -/
def intOk (f : VecF) (n : Nat) : Bool := vecOk f (!typeFloat f.ty) (decide (f.sub.toNat ≤ n)) true false true

/-- A direction field that is not reserved (R216). -/
def dirOk (sub : BitVec 4) : Bool := decide (sub.toNat % 8 ≤ 4) || decide (sub.toNat % 8 = 7)

/-- VCVTR's field checks (R217). -/
def cvtrOk (f : VecF) (styp : BitVec 2) (half : Bool) : Bool :=
  vecOk f (styp ≠ f.ty) (if typeFloat styp && !typeFloat f.ty then dirOk f.sub else decide (f.sub = 0)) false false true &&
    (!half || decide (laneBits styp ≠ laneBits f.ty))

/-- VLD's field checks (R204, R221). -/
def vldOk (f : VldF) : Bool :=
  if f.crm then decide (f.ra = 0) && decide (f.rb = 0) && decide (f.form = 0) && decide (f.esize = 0)
  else decide (f.cr = 0) && (decide (f.form ≠ 0) || decide (f.rb = 0)) && (decide (f.form = 3) || decide (f.esize = 0))

/-- The address register and the descriptor of VST, VLDL and VSTL. -/
def crmOk (ra : RegNo) (crm : Bool) (cr : BitVec 4) : Bool := if crm then decide (ra = 0) else decide (cr = 0)

/-- VCVT's field checks (R222). -/
def vcvtOk (f : VcvtF) : Bool :=
  (decide (f.mode = 2) || (decide (f.rt = 0) && decide (f.re = 0))) &&
    (!f.sat || decide (f.dfmt = 0x3))

def mstatOk (f : MstatF) : Bool := decide (f.fmt.toNat < 14) && (isGroup f.fmt.toNat || decide (f.rp = 0))

/-- MMUL's reserved combinations (R140, R210). -/
def mmulOk (f : MmulF) : Bool :=
  decide (f.fmt.toNat < 14) && (isGroup f.fmt.toNat || decide (f.rp = 0)) && decide (f.acc ≠ 3) &&
  (decide (f.acc ≠ 2) || ((decide (f.fmt = 6) || decide (f.fmt = 7)) && decide (f.scale = 0))) &&
  (!f.trans || (!isGroup f.fmt.toNat && decide ((elemOf f.fmt.toNat).width ≥ 8)))

/-- MREAD's destinations (R212). -/
def mreadOk (f : MreadF) : Bool :=
  match f.acc.toNat with
  | 0 => decide (f.dsel ≠ 3)
  | 1 | 2 => decide (f.dsel.toNat ≤ 1)
  | _ => false

/-- The fields that the form does not use are zero (R172, R181, R182). -/
def memArgOk (m : MemArg) : Bool := if m.crm then decide (m.rs1 = 0) && decide (m.off = 0) else decide (m.cr = 0)

/-- No field of an instruction holds a value that the manual reserves, and the fields its form does not use are zero
(R172, R204). -/
def instrOk : Instr → Bool
  | .vadd _ _ f | .vsub _ _ f | .vmul _ _ f | .vdiv _ _ f | .vrem _ _ f | .vmin _ _ f | .vmax _ _ f
  | .vminnum _ _ f | .vmaxnum _ _ f | .vscaleb _ _ f => fpOk f true false
  | .vsqrt _ _ f | .vlogb _ _ f | .vclass _ _ f => fpOk f false false
  | .vfma _ _ f | .vfms _ _ f | .vfnma _ _ f => fpOk f true true
  | .vrint _ _ f => vecOk f (typeFloat f.ty) (dirOk f.sub) false false true
  | .vnext _ _ f => vecOk f (typeFloat f.ty) (decide (f.sub.toNat ≤ 1)) false false true
  | .vcmp _ _ f => vecOk f (typeFloat f.ty) true true false true
  | .vsgn _ _ f => vecOk f (typeFloat f.ty) (decide (f.sub.toNat ≤ 3)) (f.sub = 3) false true
  | .vcvtr _ _ f stype half => cvtrOk f stype half
  | .viadd _ _ f | .visub _ _ f | .vimul _ _ f | .vand _ _ f | .vor _ _ f | .vxor _ _ f | .vshl _ _ f => intOk f 0
  | .vshr _ _ f | .vimin _ _ f | .vimax _ _ f => intOk f 1
  | .vicmp _ _ f => intOk f 7
  | .vsel _ _ f => vecOk f true (f.sub = 0) true true true
  | .vsplat _ _ f => vecOk f true (f.sub = 0) false false true
  | .vperm _ _ f => vecOk f true (f.sub = 0) true false false
  | .vred _ _ f => vecOk f true (decide (f.sub.toNat ≤ 2)) false false false
  | .vsf _ _ f => vecOk f (f.ty = 0) (decide (f.sub.toNat ≤ 5)) false false false
  | .vld _ _ f => vldOk f
  | .vst _ _ _ ra crm cr => crmOk ra crm cr
  | .vldl _ _ _ ra lane crm cr | .vstl _ _ _ ra lane crm cr => crmOk ra crm cr && decide (lane.toNat < 16)
  | .vcvt _ _ f => vcvtOk f
  | .vslice64 _ _ _ _ _ _ _ sc _ => decide (sc ≠ 3)
  | .vsample _ _ f => decide (f.k.toNat ≤ 64)
  | .mstat _ _ f => mstatOk f
  | .mmul _ _ f => mmulOk f
  | .mread _ _ f => mreadOk f
  | .rraw128 _ _ f | .rraw32 _ _ f | .runi _ _ f => decide (f.p = 0)
  | .xrun _ w _ _ => decide (w.wait = none)
  | .lb _ _ a | .lbu _ _ a | .lh _ _ a | .lhu _ _ a | .lw _ _ a | .lwu _ _ a | .ld _ _ a => memArgOk a
  | .sb _ _ a | .sh _ _ a | .sw _ _ a | .sd _ _ a => memArgOk a
  | .ext _ _ _ sel => decide (sel ≠ 3) && decide (sel ≠ 7)
  | .fence _ _ scope => decide (scope ≠ 3)
  | .psend _ _ f => decide (f.len.toNat ≤ 8) && (!f.tagr || decide (f.tag = 0))
  | .sget _ _ f | .sput _ _ f => if f.crm then decide (f.rl = 0) else decide (f.cr = 0)
  | .samo _ _ f => decide (f.aop ≠ 7) && (decide (f.aop = 2) || decide (f.rc = 0))
  | _ => true

/-! ### Decoding (R171, R174, R177–R195, R207–R236) -/

/-- A field of a word. -/
def fld (w : Word) (lo n : Nat) : BitVec n := w.extractLsb' lo n
/-- A register field. -/
def rfld (w : Word) (lo : Nat) : RegNo := w.extractLsb' lo 5
/-- Reserved bits are zero. -/
def rsv (w : Word) (lo n : Nat) : Bool := decide (bits w.toNat lo n = 0)

/-- An instruction whose reserved bits are zero. -/
def decIf (b : Bool) (i : Instr) : Option Instr := if b then some i else none

/-- The wait and signal fields of the E format (R174). -/
def decWaitSig (w : Word) : Option WaitSig :=
  if (w.getLsbD 53 || rsv w 49 4) && (w.getLsbD 48 || rsv w 44 4) then
    some { wait := if w.getLsbD 53 then some (fld w 49 4) else none,
           sig := if w.getLsbD 48 then some (fld w 44 4) else none }
  else none

/-- An E-format instruction (R174). -/
def decE (w : Word) (b : Bool) (f : WaitSig → Instr) : Option Instr := (decWaitSig w).bind fun ws => decIf b (f ws)

/-- The R, I, M, B formats and the vector format (R171, R215). -/
def decR (t : TileId) (w : Word) (f : TileId → RegNo → RegNo → RegNo → Instr) : Option Instr :=
  decIf (rsv w 0 39) (f t (rfld w 49) (rfld w 44) (rfld w 39))
def decR1 (t : TileId) (w : Word) (f : TileId → RegNo → RegNo → Instr) : Option Instr :=
  decIf (rsv w 0 44) (f t (rfld w 49) (rfld w 44))
def decI (t : TileId) (w : Word) (f : TileId → RegNo → RegNo → BitVec 44 → Instr) : Option Instr :=
  some (f t (rfld w 49) (rfld w 44) (fld w 0 44))
def decSh (t : TileId) (w : Word) (f : TileId → RegNo → RegNo → BitVec 6 → Instr) : Option Instr :=
  decIf (rsv w 6 38) (f t (rfld w 49) (rfld w 44) (fld w 0 6))
def decM (t : TileId) (w : Word) (f : TileId → RegNo → MemArg → Instr) : Option Instr :=
  decIf (rsv w 22 17) (f t (rfld w 49) { rs1 := rfld w 44, crm := w.getLsbD 43, cr := fld w 39 4, off := fld w 0 22 })
def decB (t : TileId) (w : Word) (f : TileId → RegNo → RegNo → BitVec 24 → Instr) : Option Instr :=
  decIf (rsv w 24 20) (f t (rfld w 49) (rfld w 44) (fld w 0 24))
def vecFields (w : Word) : VecF :=
  { vd := rfld w 39, va := rfld w 34, vb := rfld w 29, vc := rfld w 24, ty := fld w 22 2, mv := w.getLsbD 21,
    vm := rfld w 16, sub := fld w 12 4 }
def decV (t : TileId) (w : Word) (f : TileId → WaitSig → VecF → Instr) : Option Instr :=
  decE w (rsv w 0 12) fun ws => f t ws (vecFields w)

/-- The scalar core's instructions, FENCE among them (R175–R195). -/
def decScalar (t : TileId) (w : Word) : Nat → Option Instr
  | 0x001 => decIf (rsv w 0 54) (.nop t)
  | 0x002 => decIf (rsv w 16 38) (.brk t (fld w 0 16))
  | 0x003 => decIf (rsv w 0 54) (.ibinv t)
  | 0x004 => decIf (rsv w 0 54) (.tend t)
  | 0x005 => decIf (rsv w 0 43) (.sync t
      { phase := fld w 46 8, bubble := w.getLsbD 45, yield := w.getLsbD 44, ext := w.getLsbD 43 })
  | 0x006 => decE w (rsv w 0 44) fun ws => .sig t ws
  | 0x007 => decE w (rsv w 0 42) fun ws => .fence t ws (fld w 42 2)
  | 0x010 => decR t w .add
  | 0x011 => decR t w .sub
  | 0x012 => decR t w .and
  | 0x013 => decR t w .or
  | 0x014 => decR t w .xor
  | 0x015 => decR t w .sll
  | 0x016 => decR t w .srl
  | 0x017 => decR t w .sra
  | 0x018 => decR t w .slt
  | 0x019 => decR t w .sltu
  | 0x01A => decR t w .min
  | 0x01B => decR t w .max
  | 0x01C => decR t w .minu
  | 0x01D => decR t w .maxu
  | 0x01E => decR t w .mul
  | 0x01F => decR t w .mulh
  | 0x020 => decR t w .mulhu
  | 0x021 => decR t w .div
  | 0x022 => decR t w .divu
  | 0x023 => decR t w .rem
  | 0x024 => decR t w .remu
  | 0x025 => decR1 t w .clz
  | 0x026 => decR1 t w .ctz
  | 0x027 => decR1 t w .popc
  | 0x030 => decI t w .addi
  | 0x031 => decI t w .andi
  | 0x032 => decI t w .ori
  | 0x033 => decI t w .xori
  | 0x034 => decSh t w .slli
  | 0x035 => decSh t w .srli
  | 0x036 => decSh t w .srai
  | 0x037 => decI t w .slti
  | 0x038 => decI t w .sltiu
  | 0x039 => decIf (rsv w 44 5) (.li t (rfld w 49) (fld w 0 44))
  | 0x03A => decIf (rsv w 20 24) (.lih t (rfld w 49) (rfld w 44) (fld w 0 20))
  | 0x03B => decIf (rsv w 44 5) (.pcadd t (rfld w 49) (fld w 0 44))
  | 0x03C => decIf (rsv w 3 41) (.ext t (rfld w 49) (rfld w 44) (fld w 0 3))
  | 0x040 => decM t w .lb
  | 0x041 => decM t w .lbu
  | 0x042 => decM t w .lh
  | 0x043 => decM t w .lhu
  | 0x044 => decM t w .lw
  | 0x045 => decM t w .lwu
  | 0x046 => decM t w .ld
  | 0x048 => decM t w .sb
  | 0x049 => decM t w .sh
  | 0x04A => decM t w .sw
  | 0x04B => decM t w .sd
  | 0x050 => decB t w .beq
  | 0x051 => decB t w .bne
  | 0x052 => decB t w .blt
  | 0x053 => decB t w .bge
  | 0x054 => decB t w .bltu
  | 0x055 => decB t w .bgeu
  | 0x056 => decIf (rsv w 24 25) (.jal t (rfld w 49) (fld w 0 24))
  | 0x057 => decI t w .jalr
  | 0x060 => decIf (rsv w 44 5 && rsv w 0 32) (.trd t (rfld w 49) (fld w 32 12))
  | 0x061 => decIf (rsv w 49 5 && rsv w 0 32) (.twr t (rfld w 44) (fld w 32 12))
  | 0x062 => decIf (rsv w 44 10) (.twri t (fld w 32 12) (fld w 0 32))
  | _ => none

/-- Burin's instructions (R208–R212). -/
def decBurin (t : TileId) (w : Word) : Nat → Option Instr
  | 0x100 => decE w (rsv w 0 25) fun ws =>
      .mstat t ws { ra := rfld w 39, rp := rfld w 34, rsh := rfld w 29, fmt := fld w 25 4 }
  | 0x101 => decE w (rsv w 0 11) fun ws =>
      .mmul t ws { ra := rfld w 39, rp := rfld w 34, rsh := rfld w 29, fmt := fld w 25 4, acc := fld w 23 2,
                   zero := w.getLsbD 22, rtz := w.getLsbD 21, scale := fld w 12 9, trans := w.getLsbD 11 }
  | 0x102 => decE w (rsv w 0 23) fun ws =>
      .mread t ws { rd := rfld w 39, rsc := rfld w 34, rsh := rfld w 29, dsel := fld w 27 2, acc := fld w 25 2,
                    clear := w.getLsbD 24, rtz := w.getLsbD 23 }
  | _ => none

/-- Stylus's register instructions (R215–R220). -/
def decVector (t : TileId) (w : Word) : Nat → Option Instr
  | 0x180 => decV t w .vadd
  | 0x181 => decV t w .vsub
  | 0x182 => decV t w .vmul
  | 0x183 => decV t w .vdiv
  | 0x184 => decV t w .vsqrt
  | 0x185 => decV t w .vfma
  | 0x186 => decV t w .vfms
  | 0x187 => decV t w .vfnma
  | 0x188 => decV t w .vrem
  | 0x189 => decV t w .vmin
  | 0x18A => decV t w .vmax
  | 0x18B => decV t w .vminnum
  | 0x18C => decV t w .vmaxnum
  | 0x18D => decV t w .vrint
  | 0x18E => decV t w .vscaleb
  | 0x18F => decV t w .vlogb
  | 0x190 => decV t w .vnext
  | 0x191 => decV t w .vcmp
  | 0x192 => decV t w .vclass
  | 0x193 => decV t w .vsgn
  | 0x194 => decE w (rsv w 0 9) fun ws => .vcvtr t ws (vecFields w) (fld w 10 2) (w.getLsbD 9)
  | 0x1A0 => decV t w .viadd
  | 0x1A1 => decV t w .visub
  | 0x1A2 => decV t w .vimul
  | 0x1A3 => decV t w .vand
  | 0x1A4 => decV t w .vor
  | 0x1A5 => decV t w .vxor
  | 0x1A6 => decV t w .vshl
  | 0x1A7 => decV t w .vshr
  | 0x1A8 => decV t w .vimin
  | 0x1A9 => decV t w .vimax
  | 0x1AA => decV t w .vicmp
  | 0x1B0 => decV t w .vsel
  | 0x1B1 => decV t w .vsplat
  | 0x1B2 => decV t w .vperm
  | 0x1B3 => decV t w .vred
  | 0x1D0 => decV t w .vsf
  | 0x1D1 => decE w (rsv w 0 29) fun ws => .vgumbel t ws (rfld w 39) (rfld w 34) (rfld w 29)
  | _ => none

/-- Stylus's memory and bulk instructions (R221–R225). -/
def decBulk (t : TileId) (w : Word) : Nat → Option Instr
  | 0x1C0 => decE w (rsv w 0 20) fun ws =>
      .vld t ws { vd := rfld w 39, ra := rfld w 34, rb := rfld w 29, form := fld w 27 2, esize := fld w 25 2,
                  crm := w.getLsbD 24, cr := fld w 20 4 }
  | 0x1C1 => decE w (rsv w 25 9 && rsv w 0 20) fun ws =>
      .vst t ws (rfld w 39) (rfld w 34) (w.getLsbD 24) (fld w 20 4)
  | 0x1C2 => decE w (rsv w 25 4 && rsv w 0 20) fun ws =>
      .vldl t ws (rfld w 39) (rfld w 34) (fld w 29 5) (w.getLsbD 24) (fld w 20 4)
  | 0x1C3 => decE w (rsv w 25 4 && rsv w 0 20) fun ws =>
      .vstl t ws (rfld w 39) (rfld w 34) (fld w 29 5) (w.getLsbD 24) (fld w 20 4)
  | 0x1C4 => decE w (rsv w 34 5 && rsv w 0 29) fun ws => .vstg t ws (rfld w 39) (rfld w 29)
  | 0x1E0 => decE w (rsv w 0 3) fun ws =>
      .vcvt t ws { rs := rfld w 39, rd := rfld w 34, rn := rfld w 29, rp := rfld w 24, rt := rfld w 19, re := rfld w 14,
                   sfmt := fld w 10 4, dfmt := fld w 6 4, mode := fld w 4 2, sat := w.getLsbD 3 }
  | 0x1E1 => decE w (rsv w 0 23) fun ws =>
      .vsplit32 t ws (rfld w 39) (rfld w 34) (rfld w 29) (rfld w 24) (w.getLsbD 23)
  | 0x1E2 => decE w (rsv w 0 16) fun ws =>
      .vslice64 t ws (rfld w 39) (rfld w 34) (rfld w 29) (rfld w 24) (rfld w 19) (fld w 17 2) (w.getLsbD 16)
  | 0x1E3 => decE w (rsv w 0 6) fun ws =>
      .vsample t ws { rz := rfld w 39, rn := rfld w 34, rb := rfld w 29, rt := rfld w 24, re := rfld w 19, rr := rfld w 14,
                      k := fld w 7 7, greedy := w.getLsbD 6 }
  | _ => none

/-- The operand field that the Stipple instructions share (R228). -/
def stipFields (w : Word) : StipF :=
  { rd := rfld w 39, rn := rfld w 34, rt := rfld w 29, re := rfld w 24, stg := w.getLsbD 23, p := fld w 7 16 }

/-- SGET's and SPUT's operand field (R236). -/
def scopyFields (w : Word) : ScopyF :=
  { rl := rfld w 39, rv := rfld w 34, rn := rfld w 29, rst := rfld w 24, acq := w.getLsbD 23, rel := w.getLsbD 22,
    crm := w.getLsbD 21, cr := fld w 17 4 }

/-- The instructions of Stipple, the exchange engine, the stream engine and the post engine (R228–R236). -/
def decOther (t : TileId) (w : Word) : Nat → Option Instr
  | 0x280 => decE w (rsv w 0 7) fun ws => .rraw128 t ws (stipFields w)
  | 0x281 => decE w (rsv w 0 7) fun ws => .rraw32 t ws (stipFields w)
  | 0x282 => decE w (rsv w 0 7) fun ws => .runi t ws (stipFields w)
  | 0x283 => decE w (rsv w 0 7) fun ws => .rbern t ws (stipFields w)
  | 0x2C0 => decE w (rsv w 0 34) fun ws => .xrun t ws (rfld w 39) (rfld w 34)
  | 0x300 => decE w (rsv w 0 39) fun ws => .sdesc t ws (rfld w 39)
  | 0x301 => decE w (rsv w 0 17) fun ws => .sget t ws (scopyFields w)
  | 0x302 => decE w (rsv w 0 17) fun ws => .sput t ws (scopyFields w)
  | 0x303 => decE w (rsv w 0 19) fun ws =>
      .samo t ws { rv := rfld w 39, rx := rfld w 34, rc := rfld w 29, rr := rfld w 24, acq := w.getLsbD 23,
                   rel := w.getLsbD 22, aop := fld w 19 3 }
  | 0x304 => decE w (rsv w 24 10 && rsv w 0 22) fun ws =>
      .sflag t ws (rfld w 39) (rfld w 34) (w.getLsbD 23) (w.getLsbD 22)
  | 0x340 => decE w (rsv w 0 13) fun ws =>
      .psend t ws { rdst := rfld w 39, rsrc := rfld w 34, tag := fld w 18 16, len := fld w 14 4, tagr := w.getLsbD 13 }
  | _ => none

/-- The instruction that a word encodes for a tile's scalar core, none where its opcode or a reserved bit makes it illegal
(R171, R172, R175). -/
def oz8Decode (t : TileId) (w : Word) : Option Instr :=
  let op := bits w.toNat 54 10
  if op < 0x100 then decScalar t w op
  else if op < 0x180 then decBurin t w op
  else if op < 0x1C0 then decVector t w op
  else if op < 0x1D0 then decBulk t w op
  else if op < 0x1E0 then decVector t w op
  else if op < 0x280 then decBulk t w op
  else decOther t w op

/-- A word raises the illegal-opcode fault at D (R172). -/
def oz8Illegal (t : TileId) (w : Word) : Bool :=
  match oz8Decode t w with
  | some i => !instrOk i
  | none => true

end Sys2Proof.Machine
end

