-- ==== Sys2Proof/Config.lean ====
section
/-! DEFINITION. What no rule of the manual fixes and nothing in the model can evaluate: the free values, and the
two cryptographic primitives that the manual names and does not define. -/

namespace Sys2Proof

/-- The n-th free value (assumption 1): wherever the manual leaves a value open after an operation that goes on, the
operation takes the next one, reduced to the width it needs. It has no body, so a claim holds whatever it is. -/
opaque Config.freeValue : Nat → Nat

/-- The idle draw of a power domain in W, which the governor adds to its base draw before it switches the domain on (R391). The
manual gives no figure. -/
opaque Config.idleDraw : Nat → Nat

/-- SHA-384 of a byte list (R430, R441), as a number of 384 bits. The manual names the algorithm and gives no steps. -/
opaque Config.sha384 : List (BitVec 8) → BitVec 384

/-- Whether a firmware image's signature verifies under the key of the fuses (R441). The manual names the check
and gives no steps. -/
opaque Config.signatureOk : List (BitVec 8) → BitVec 384 → Bool

end Sys2Proof
end

