-- ==== Sys2Proof/Machine/State.lean ====
section
/-! DEFINITION. The block's state as plain data: everything the manual gives the device, the queue of commands that
wait, the reasons a command may stop, and the state right after power-on reset. -/

namespace Sys2Proof.Machine

/-! ### The tile (R47–R76, R77–R102, R197–R203, R477) -/

/-- The states of a context (R69). -/
inductive CtxPhase where
  | empty
  | loaded
  | active
  | done
  | faulted
  | evicted
deriving DecidableEq, Repr

/-- Why the scalar core of a context issues nothing although the context is ACTIVE (R60, R63, R66, R192). -/
inductive Gate where
  /-- It issues. -/
  | none
  /-- A SIG waits in D on a counter that was zero (R188). -/
  | sig (w : WaitSig)
  /-- A SYNC waits in D for Burin, Stylus and Stipple to drain (R66). -/
  | sync (f : SyncFields)
  /-- The SYNC's arrival may be reported (R192). -/
  | arrive (f : SyncFields)
  /-- The arrival is reported; the tile waits for the end decision (R246). -/
  | barrier
  /-- TEND waits for the audit's condition (R63). -/
  | audit
deriving DecidableEq, Repr

/-- A circular-region descriptor (R90). Offsets are in bytes. EMPTY is computed from the occupancy. -/
structure CircReg where
  en : Bool
  /-- size in 128-byte lines, as SIZE was written -/
  size : BitVec 15
  /-- bits 20:7 of the base's relative address -/
  base : BitVec 14
  head : Nat
  tail : Nat
  full : Bool
  overrun : Bool
  underrun : Bool
deriving DecidableEq, Repr

/-- The post engine's shadow of one status word (R293, R294); EN is the descriptor's. -/
structure PostRing where
  parked : Bool
  resetSeen : Bool
  drops : BitVec 16
  count : BitVec 16
  wptr : Nat
deriving DecidableEq, Repr

/-- An instruction held by an engine: the instruction, the context that issued it, the scalar operands captured in D
(R54), the rounding direction and the Stipple registers captured with them (R158, R187), and its address. -/
structure EngOp where
  ins : Instr
  ctx : Bool
  regs : List Word
  rm : BitVec 3
  key : BitVec 128
  tn6 : Bool
  pc : Word
deriving DecidableEq, Repr

/-- The queue of a per-tile engine, the instructions it has started and not finished, in issue order (R53, R55,
R498), and those that a stop found running and that it abandons at their next internal step (R74). -/
structure EngQ where
  queue : List EngOp
  running : List EngOp
  aborting : List EngOp
deriving DecidableEq, Repr

/-- A translation fault as the slot keeps it (R332, R333): CAUSE, LEVEL and INDEX of T_XLAT_FAULT_INFO, the virtual address,
the intent and e_f. -/
structure XlatFault where
  cause : BitVec 3
  level : BitVec 4
  index : BitVec 9
  va : Word
  write : Bool
  elem : Nat
deriving DecidableEq, Repr

/-- Where a stream instruction stands (R235, R322, R332). -/
inductive StreamPhase where
  /-- issued, not yet accepted -/
  | queued
  /-- accepted -/
  | running
  /-- suspended by a translation fault (R332) -/
  | suspended (f : XlatFault)
  /-- stopped at a gather-list entry with an uncorrectable error: it never signals (R100) -/
  | dead
  /-- rejected at acceptance; its record waits for an earlier ACQ or FENCE (R321, R337) -/
  | rejected
deriving DecidableEq, Repr

/-- A table entry as the translation caches tag it: address-space id, level, the VA bits that it covers, the entry (R330). -/
abbrev XlatEntry := BitVec 12 × Nat × Nat × Word

/-- A translated page: virtual base, size, global physical base, and the entries that translated it. -/
structure XlatPage where
  va : Nat
  size : Nat
  pa : Nat
  via : List XlatEntry
deriving DecidableEq, Repr

/-- A translated piece of a descriptor: the global physical address of each of its memory-side bytes, the entries that translated it,
and whether one of them has been invalidated since (R331). -/
structure XlatPiece where
  pas : List Nat
  via : List XlatEntry
  stale : Bool
deriving DecidableEq, Repr

/-- Accesses issued together: the elements from `first` to before `stop`, the global physical address of each of their
memory-side bytes, the bytes carried with the code of R323 that each has drawn, the granules, by number, still to be
answered, and how they were translated. -/
structure Batch where
  first : Nat
  stop : Nat
  addrs : List Nat
  bytes : List (Byte × BitVec 4)
  wait : List Nat
  via : List XlatEntry
  stale : Bool
deriving DecidableEq, Repr

/-- One instruction of a context's stream queue, from issue to finish (R53, R498). -/
structure StreamOp where
  op : EngOp
  phase : StreamPhase
  /-- the stream slot taken at acceptance (R332) -/
  slot : Nat
  /-- the 64 bytes of the descriptor as read at acceptance (R317) -/
  desc : BitVec 512
  /-- the parameter block as read after acceptance (R318) -/
  param : BitVec 512
  /-- the first element whose accesses are not yet issued -/
  next : Nat
  /-- the first element not yet translated (R337) -/
  trans : Nat
  /-- pages translated since the operation began or resumed -/
  pages : List XlatPage
  /-- the translated pieces from `next` on, whose accesses are not yet issued -/
  ready : List XlatPiece
  /-- bytes of a unit of a circular region held in the slot (R334), each with its poison -/
  held : List (Byte × Bool)
  /-- what a PUT's issued elements have of the memory byte that they share with the next element (R107) -/
  part : Byte
  /-- accesses issued and not all answered, in element order -/
  batches : List Batch
  flags : BitVec 5
  failCode : BitVec 4
  failElem : Option Nat
  /-- granules that failed, by number -/
  failGrans : List Nat
  partmap : BitVec 16
  /-- devices that the translated elements lie on -/
  devs : List Nat
deriving DecidableEq, Repr

/-- The record of a context's first exchange fault in an exchange, and the count of later ones (R285). -/
structure XFault where
  code : Nat
  cycle : Nat
  lane : Nat
  addr : Nat
  further : Nat
deriving DecidableEq, Repr

/-- The state of the check bits of an aligned 8-byte word of the scratchpad (R99–R101). -/
inductive WordErr where
  | ok
  /-- a correctable single-bit error -/
  | single
  /-- an uncorrectable error, or poison that no recorded granule brought -/
  | uncorrectable
  /-- poison that a recorded granule brought (R462) -/
  | poisoned
deriving DecidableEq, Repr

/-- The exchange engine's progress through its list (R230–R233). -/
structure XchRun where
  ctx : Bool
  list : Nat
  len : Nat
  /-- index of the next word -/
  idx : Nat
  /-- CYCLE of the last performed word, last send, last receive -/
  last : Option Nat
  lastSend : Option Nat
  lastRecv : Option Nat
  /-- words of the list fetched and not yet taken, each with the uncorrectable word that its fetch found (R233) -/
  buf : List (Nat × Option Nat)
  /-- lines of the list fetched -/
  lines : Nat
  /-- what the latest receives wrote over, the latest first: cycle, relative address, the 32 bytes and their four words' check bits. A
  send or a fetch that falls before such a write reads these (R275). -/
  undo : List (Nat × Nat × BitVec 256 × List WordErr)
  finished : Bool
deriving DecidableEq, Repr

/-- A line of the instruction buffer (R50). The list that holds them is ordered by use, the latest first. -/
structure IbLine where
  ctx : Bool
  /-- physical line address divided by 128 -/
  line : Nat
  data : BitVec 1024
  /-- the word of the line that was uncorrectable when it was filled (R100) -/
  ue : Option Nat
deriving DecidableEq, Repr

/-- Burin's operand buffer (R130, R209): shape, stationary format, elements and plates. -/
structure OpBuf where
  n : Nat
  k32 : Nat
  fmt : BitVec 4
  elems : List (BitVec 16)
  plates : List Byte
deriving DecidableEq, Repr

/-- A W64 value (R131): m · 2^(e − 63) with m's top bit set where it is finite and not zero. -/
inductive W64 where
  | nan
  | inf (s : Bool)
  | zero (s : Bool)
  | num (s : Bool) (m : BitVec 64) (e : Int)
deriving DecidableEq, Repr

/-- A 4-byte word of accumulator storage, by the kind last written into it (R131): empty reads as zero in every kind. A
W64 accumulator stands in the first of its four words. -/
inductive AccCell where
  | empty
  | b32 (a : BitVec 32)
  | i32 (a : BitVec 32)
  | w64 (v : W64)
  | part
deriving DecidableEq, Repr

/-- One context of a tile (R64). -/
structure Ctx where
  phase : CtxPhase
  /-- the address of the next instruction to issue, relative to the partition (R47) -/
  pc : Word
  regs : SMap Word
  tcCount : Word
  args : SMap Word
  sig : SMap (BitVec 4)
  ovf : BitVec 16
  fpcsr : BitVec 13
  stpKeyLo : Word
  stpKeyHi : Word
  stpCtl : Word
  stpTn6 : Word
  crs : SMap CircReg
  rings : SMap PostRing
  postEn : Bool
  statusBase : BitVec 14
  postSeq : BitVec 32
  /-- post sends issued and not yet accepted (R53, R289) -/
  postQ : List EngOp
  asid : BitVec 12
  xlatVa : Word
  xlatInfo : Word
  xlatElem : Word
  strmErr : Word
  stream : List StreamOp
  /-- a post-eviction hold: the stream engine accepts nothing (R74, R260) -/
  streamHold : Bool
  zone : BitVec 3
  storesLive : Bool
  lastEnd : BitVec 3
  lastLz : BitVec 21
  lastPhase : BitVec 8
  supersteps : BitVec 32
  lastReturn : BitVec 3
  bubbles : BitVec 16
  gate : Gate
  halted : Bool
  /-- instructions a STEP still lets through (R476) -/
  steps : Nat
  /-- the next instruction does not match breakpoints (R476) -/
  skipMatch : Bool
  /-- a halt reached the tile in an exchange (R475) -/
  haltPend : Bool
  xfault : Option XFault
  /-- stopped at exchange end for an uncorrectable word (R100) -/
  xue : Option (Nat × Nat)
  /-- stopped at exchange end for a fault of another engine, whose record this is (R264) -/
  stopPend : Option Nat
  /-- an eviction's save is running (R260) -/
  saving : Bool
  /-- a reset of this context waits for the exchange's end (R433) -/
  resetPend : Bool
  /-- the image's entry address, kept for START (R203, R429) -/
  entry : Word
  /-- a START has named it since its load, eviction or its host's abort (R258, R499) -/
  started : Bool
  /-- it has been active since its load (R254, R261) -/
  begun : Bool
deriving DecidableEq, Repr

/-- A tile: both contexts, the per-tile stores and engines, the scratchpad and the debug registers. -/
structure Tile where
  /-- partition boundary b (R70) -/
  bound : Nat
  c0 : Ctx
  c1 : Ctx
  burin : EngQ
  stylus : EngQ
  stipple : EngQ
  xeng : EngQ
  vregs : SMap (BitVec 1024)
  opbuf : OpBuf
  acc : SMap AccCell
  staging : SMap (BitVec 1024)
  ib : List IbLine
  /-- the line that F2 last read from: context and physical line (R51) -/
  ibAt : Option (Bool × Nat)
  /-- fills on their way: context and physical line (R51) -/
  fills : List (Bool × Nat)
  /-- scratchpad bytes by physical address; an unlisted byte is zero (R437) -/
  sp : List Host.Cell
  /-- check-bit state of each aligned 8-byte word, by word index -/
  spErr : SMap WordErr
  scrubLine : Nat
  xch : Option XchRun
  ibp : SMap Word
  wp : SMap Word
  haltOnBrk : Bool
  audit : Bool
  dbgHit : Word
deriving DecidableEq, Repr

/-! ### Clusters, regions, zones and the log (R25–R46, R99–R102, R243–R262, R270–R286, R454–R468, R482–R485) -/

/-- A trace event (R483). -/
structure TraceEvent where
  time : Word
  tile : TileId
  ctx : Bool
  type : Nat
  /-- bytes 12–31, byte 12 lowest -/
  payload : BitVec 160
deriving DecidableEq, Repr

/-- A cluster controller: the spare map (R46), the scrubber and error counters (R102), the error collector
(R456) and the trace source queue (R482). -/
structure Cluster where
  spareFailed : Bool
  secondFail : Bool
  pend : Option (BitVec 4)
  active : Option (BitVec 4)
  pendReason : Nat
  scrubEn : Bool
  scrubInterval : BitVec 3
  spCe : SMap (BitVec 16)
  spUe : Word32
  errEscalated : Bool
  errPos : BitVec 5
  errAction : BitVec 3
  errWindows : BitVec 16
  trq : List TraceEvent
  /-- events discarded from the queue since the last one written (R482) -/
  trqLost : Nat
  qdrop : BitVec 31
  /-- scratchpad bytes and check bits of the seventeenth position: of position 16 while it carries no tile, of the position
  that carried the substituted tile while it carries one (R32, R390) -/
  spareSp : List Host.Cell
  spareErr : SMap WordErr
deriving DecidableEq, Repr

/-- An inbound exchange crossing (R278–R280). -/
structure Crossing where
  valid : Bool
  depth : BitVec 3
  wander : BitVec 6
  slipped : Bool
  recalPend : Bool
  /-- the steward is re-centring or calibrating it: releases are held (R280) -/
  busy : Bool
deriving DecidableEq, Repr

/-- The exchange and trace side of a region (R278–R285, R482–R485) and its clock generator and steward (R46). -/
structure Region where
  stewardOk : Bool
  refLock : Bool
  clkActive : BitVec 6
  clkTarget : BitVec 6
  xcalValid : Bool
  slippedSticky : Bool
  slipCount : BitVec 8
  xings : SMap Crossing
  bootCalDone : Bool
  xmon : BitVec 16
  trcCtl : Word32
  trcTiles : SMap (BitVec 16)
  trcLo : BitVec 18
  trcHi : BitVec 18
  trcTag : Word32
  trcBuf : SMap (BitVec 256)
  trcNext : BitVec 15
  trcWrapped : Bool
  trcSeq : BitVec 8
  trcLost : BitVec 31
  trcRdIdx : BitVec 15
  trcCapture : BitVec 256
  /-- multicast table: mask by entry (R270) -/
  mcast : SMap (BitVec 144)
  xlatRootLo : Word32
  xlatRootHi : Word32
  invDone : Bool
  invMode : BitVec 2
  invAsid : BitVec 12
  invVaLo : Word32
  invVaHi : Word32
  /-- leaf and walk caches: space, level, VA bits 56:16 with the bits below the level's index zero, entry (R330) -/
  xlatCache : List (BitVec 12 × Nat × Nat × Word)
  /-- a droop-stretched compute clock (R250) -/
  droop : Bool
  droopCount : Word32
  /-- fractional compute-clock time: units of a sixteenth tc not yet counted (R200) -/
  tcFrac : Nat
deriving DecidableEq, Repr

/-- A word on a track instance (R268): the region it comes from, instance, arrival cycle, data, poison, collision, the
receivers. -/
structure TrackWord where
  zone : BitVec 3
  src : Nat
  /-- lane class and instance: the cluster (die, region, cluster) for lanes 0–15, the region otherwise -/
  inst : Nat
  lane : Nat
  cycle : Nat
  data : BitVec 256
  poison : Bool
  collide : Bool
  rset : List TileId
  heard : Bool
deriving DecidableEq, Repr

/-- The kind of a latched request (R259). -/
inductive ReqKind where
  | yield
  | stop
  | evict (area : Nat)
deriving DecidableEq, Repr

/-- A request latched in a zone's root, with the command that waits for it (R259, R427). -/
structure ZoneReq where
  kind : ReqKind
  any : Bool
  queue : Nat
  seq : BitVec 32
  deadline : Option Word
deriving DecidableEq, Repr

/-- Where a zone's barrier stands (R246). -/
inductive BarPhase where
  | collecting
  /-- the last local arrival is counted; the group release has not come (R249) -/
  | waitExt
  /-- the release has left; the exchange runs until the end decision -/
  | exchanging
deriving DecidableEq, Repr

/-- A sync zone's root (R243–R265). -/
structure Zone where
  job : Nat
  role : BitVec 2
  pair : Option (BitVec 3)
  budget : BitVec 20
  started : Bool
  aborted : Bool
  bar : BarPhase
  first : Option SyncFields
  arrived : List TileId
  lz : Nat
  reqs : List ZoneReq
  /-- a bubble of this host zone is in progress, with the rc at which its decision left the root (R254, R255) -/
  bubble : Option Word
  laneMask : BitVec 128
  /-- the regions where its lanes are granted to it (R271) -/
  lanes : List Nat
  mcBase : Nat
  mcCount : Nat
  /-- the regions whose tables hold its sets (R270) -/
  mcRegions : List Nat
  phaseNow : BitVec 8
  /-- command waiting for the zone's eviction to finish (R260) -/
  evictWait : Option ZoneReq
  evictArea : Nat
  /-- an UNPAIR of this host zone waits for its bubble's end (R422, R424) -/
  unpair : Bool
deriving DecidableEq, Repr

/-- A log record (R461). `detail` is bytes 32–63, byte 32 lowest. -/
structure Record where
  index : BitVec 32
  count : BitVec 32
  firstRc : Word
  lastRc : Word
  code : Nat
  cls : Nat
  escalated : Bool
  absorbed : Bool
  multiUnit : Bool
  level : Nat
  unit : Nat
  ctx : Bool
  pos : Nat
  action : Nat
  detail : BitVec 256
  /-- a catch-all record of its alarm code (R466) -/
  catchAll : Bool
  /-- zone and superstep of a program fault, by which records coalesce (R465); zero where they do not -/
  key : Nat
deriving DecidableEq, Repr

/-- An open recovery window (R456–R459). -/
structure Window where
  level : Nat
  unit : Nat
  /-- the tile at which the recovery began -/
  tile : TileId
  ctx : Bool
  opened : Word
  /-- INDEX of the record that opened it, none where no record was made (R500) -/
  rec1 : Option (BitVec 32)
  rec2 : Option (BitVec 32)
  program : Bool
  /-- the action under way, coded as in R458 -/
  action : Nat
deriving DecidableEq, Repr

/-- The log in always-on RAM (R466) and the escalation state of the chip (R456). -/
structure Log where
  errs : List Record
  alarms : List Record
  staged : List Record
  next : BitVec 32
  dropped : BitVec 32
  /-- LOGFULL has been raised since the section last had room (R466) -/
  fullRaised : Bool
  events : List (BitVec 128)
  windows : List Window
  fenced : Bool
  fenceCause : BitVec 32
  alarmCfg : Word32
  ceCfg : Word32
  hostErr : Word32
  logIdx : Word32
deriving DecidableEq, Repr

/-! ### Package memory, the host interface and the arbiters (R303–R345, R408–R428) -/

/-- The state of a granule's controller code, check value and poison bit (R312, R313, R345). -/
inductive GranErr where
  | ok
  /-- one erroneous symbol, correctable -/
  | single
  /-- an error that the DRAM's own code corrects and reports (R312) -/
  | onDie
  /-- an uncorrectable controller code not yet found -/
  | uncorrectable
  /-- a stored check value that does not match, not yet found -/
  | mismatch
  | poisoned
deriving DecidableEq, Repr

/-- An HBM stack's controller (R312, R313 and the MEM registers). -/
structure Stack where
  trained : Bool
  selfRefresh : Bool
  refDouble : Bool
  temp : BitVec 8
  ce : BitVec 16
  poisonLo : Word32
  poisonHi : Word32
  openRows : List Nat
deriving DecidableEq, Repr

/-- A request that waits for an answer from beyond the package (R322, R343, R355, R408): to another device, or, where `dev`
is none, to host memory through the host port. `kind` is the packet type: 4 read, 5 write, 6 atomic; 0 a packet that waits for a
stack, 8 a read that HOST_WINDOW_REQUEST asked for. `gran` is the number of
the granule, `batch` the first element of the stream accesses it belongs to. A request that serves another device's packet
has that packet in `origin` (R314). -/
structure MemReq where
  txid : BitVec 32
  dev : Option (BitVec 15)
  tile : TileId
  ctx : Bool
  slot : Nat
  kind : BitVec 4
  gran : Nat
  batch : Nat
  origin : Option Pkt
  issued : Word
deriving DecidableEq, Repr

/-- A command queue's state (R416, CMDQ_QSTAT_q). -/
inductive QState where
  | none
  | active
  | error
  | deleting
deriving DecidableEq, Repr

/-- A command that has reserved a CQ entry and not replied (R414): SEQ, OPCODE, its packet, and whether it has been given to
its family. -/
structure Started where
  seq : BitVec 32
  opcode : BitVec 16
  packet : BitVec 512
  run : Bool
deriving DecidableEq, Repr

/-- A COPY or FILL in progress (R424): its source bytes with the code of R323 that each has drawn, and the requests to other
devices not yet answered: TXID, device, offset and length. -/
structure CopyJob where
  hdr : CmdHdr
  opcode : BitVec 16
  p : CopyParams
  /-- 0 waits for its domains or for D0, 1 reads, 2 writes -/
  phase : Nat
  bytes : List (Byte × BitVec 4)
  /-- requests in flight: TXID, the other device or none for the host, offset and length -/
  wait : List (BitVec 32 × Option (BitVec 15) × Nat × Nat)
deriving DecidableEq, Repr

/-- A command queue (R412–R417). `cqUsed` counts the replies that the host has not consumed. -/
structure CmdQueue where
  state : QState
  cause : BitVec 3
  sqSize : Nat
  cqSize : Nat
  sqBase : Word
  cqBase : Word
  vector : Nat
  coCount : Nat
  coTime : Nat
  sqHead : Nat
  sqTail : Nat
  cqHead : Nat
  cqTail : Nat
  phase : Bool
  cqUsed : Nat
  started : List Started
  sinceSignal : Nat
  firstSince : Option Word
deriving DecidableEq, Repr

/-- Why a started command has not replied yet (R414, R422, R424, R476). -/
inductive WaitKind where
  | unpair (hostZone : BitVec 3)
  | event
  | step (tile : TileId) (ctx : Bool)
  | halt (sc : DbgScope)
  | priority
  | sweep (zone : BitVec 3)
  | queueDelete (q : Nat)
  | unmap (pages : Nat)
  | domain (dom : Nat)
deriving DecidableEq, Repr

/-- A started command that waits (R422). -/
structure Waiter where
  hdr : CmdHdr
  opcode : BitVec 16
  kind : WaitKind
  deadline : Option Word
deriving DecidableEq, Repr

/-- What the block sends to the host, oldest first: a reply in its completion queue, an MSI-X signal, a memory write
or read request, a completion of a host read, an Unsupported Request. The model's own record of its outputs. -/
inductive HostOut where
  | reply (queue index : Nat) (entry : BitVec 256)
  | msix (vector : Nat)
  | write (addr : Nat) (data : List Byte) (poison : Bool)
  | read (tag : BitVec 32) (addr len : Nat)
  | completion (data : List Byte) (poison : Bool)
  | unsupported
deriving DecidableEq, Repr

/-- One context in a save area (R260): its tile, the context it was, its partition's size in 64 KiB units, its state with
unaccepted and suspended stream instructions, and its partition's bytes and check bits by relative address. -/
structure SavedCtx where
  tile : TileId
  fromB : Bool
  own : Nat
  ctx : Ctx
  sp : List Host.Cell
  spErr : SMap WordErr
deriving DecidableEq, Repr

/-- A save area that the device wrote (R260, R261): its place, the job, the role and pairing of the zone, and the package
memory's cells there as the device left them, by which a restore sees an alteration. -/
structure SaveArea where
  addr : Nat
  len : Nat
  zone : BitVec 3
  job : Nat
  role : BitVec 2
  pair : Option (BitVec 3)
  budget : BitVec 20
  sysSize : BitVec 16
  zoneMap : BitVec 32
  laneMask : BitVec 128
  mcCount : Nat
  /-- the zone's multicast masks by region and set index -/
  mcast : SMap (SMap (BitVec 144))
  items : List SavedCtx
  image : List Host.Cell
deriving DecidableEq, Repr

/-- The host interface (R408–R428). -/
structure HostIf where
  power : HostPower
  major : BitVec 4
  negotiated : Bool
  ready : Bool
  queues : SMap CmdQueue
  waits : List Waiter
  copies : List CopyJob
  /-- the queue at which the next turn of service begins (R414) -/
  turn : Nat
  out : List HostOut
  /-- outputs that wait for the function to return to D0 (R408) -/
  held : List HostOut
  adminEn : Bool
  adminSq : Word
  adminCq : Word
  adminSize : Word32
  adminVec : Word32
  bar2Base : Word
  /-- the size of BAR2 is 2^bar2Log GiB (R409) -/
  bar2Log : Nat
  sysSize : BitVec 16
  zoneMap : BitVec 32
  poolBase : Nat
  poolLen : Nat
  poolUsed : Nat
  msix : SMap (BitVec 128)
  msixPend : List Nat
  /-- holding registers of the 64-bit pairs, by low offset (R13) -/
  pairHold : SMap Word32
  /-- staged high words, by low offset (R13) -/
  pairStage : List (Nat × Word32)
  /-- the save areas written and not yet restored (R261) -/
  saves : List SaveArea
deriving DecidableEq, Repr

/-- Package memory (R312–R316, R343–R345). -/
structure Memory where
  /-- bytes by local address; an unlisted byte is zero (R437) -/
  bytes : List Host.Cell
  gran : SMap GranErr
  intlvMode : BitVec 2
  intlvBusy : Bool
  intlvRefused : Bool
  hostWin : Bool
  stks : SMap Stack
  reqs : List MemReq
  nextTx : BitVec 32
deriving DecidableEq, Repr

/-- One arbiter instance (R305, R307): its grant counter, the owner of each held lane, the waiting requests, and
whether it still has to adopt the pending copy (R308). -/
structure ArbInst where
  gcount : Nat
  owners : List (Nat × ArbReq)
  reqs : List ArbReq
  adopt : Bool
deriving DecidableEq, Repr

/-- The arbiters' shared state (R303–R311). Map entries absent from a list are the default, i for requester i. -/
structure Arb where
  ageNow : BitVec 16
  shift : BitVec 3
  nShadow : SMap (BitVec 7)
  nActive : SMap (BitVec 7)
  nPending : SMap (BitVec 7)
  mapShadow : List (Nat × BitVec 9)
  mapActive : List (Nat × BitVec 9)
  mapPending : List (Nat × BitVec 9)
  insts : SMap ArbInst
  busy : Bool
  refused : Bool
  bad : Bool
  badClass : BitVec 4
  commits : BitVec 16
  hold : Bool
  granted : Bool
  holdAbandoned : Bool
  stat : SMap Word32
deriving DecidableEq, Repr

/-! ### The fabric and the external sync groups (R346–R384) -/

/-- One slot of a flit (R351): its descriptor and its 64 bytes, those beyond the list's end zero. -/
structure FlitSlot where
  vc : BitVec 2
  cls : Bool
  kind : BitVec 3
  poison : Bool
  data : List Byte
deriving DecidableEq, Repr

/-- A flit (R350): its sequence number and acknowledgement, IDLE and NAK, slots 1 to 9, those beyond the list's end idle, the credit
returns by 2v + c, and the link control message. -/
structure Flit where
  seq : BitVec 16
  ack : BitVec 16
  idle : Bool
  nak : Bool
  slots : List FlitSlot
  credits : SMap Nat
  lcm : BitVec 64
deriving DecidableEq, Repr

/-- A DATA flit kept for replay (R352), and how often it was resent. -/
structure TxFlit where
  flit : Flit
  resent : Nat
deriving DecidableEq, Repr

/-- The equaliser settings of a lane's peer transmitter (R347, R369, R370): what a training arrived at, or a preset of a sweep. What
the values mean is the PMD's. -/
inductive EqSet where
  | trained (v : Word32)
  | preset (k : Nat)
deriving DecidableEq, Repr

/-- A packet whose slots an ingress has accepted and that the transport layer has not taken yet (R351, R356): the ingress, the slots
whose credits it holds there, and the packet. -/
structure RxPkt where
  ingress : Nat
  slots : Nat
  pkt : Pkt
deriving DecidableEq, Repr

/-- One egress and ingress 2p + h (R346–R353, R366). -/
structure Half where
  state : BitVec 4
  version : BitVec 2
  rate200 : Bool
  peerTn6 : Bool
  width : BitVec 2
  peerEgress : BitVec 6
  peerValid : Bool
  peerDev : BitVec 15
  /-- the 100 ms pause before DETECT (R366) -/
  pausing : Bool
  txSeq : BitVec 16
  unacked : List TxFlit
  rxNext : BitVec 16
  /-- accepted DATA flits since the last ACK was sent -/
  rxSinceAck : Nat
  nakWait : Bool
  /-- credits held, by 2v + c (R353) -/
  credits : SMap Nat
  /-- slots freed and not yet returned, by 2v + c -/
  owed : SMap Nat
  /-- slots of the packet in progress, by virtual channel -/
  rxProg : SMap (List FlitSlot)
  helloSent : Bool
  helloGot : Option (BitVec 64)
  /-- FAB_PORT_CFG as this training began: its MAX_VER and PMD are in force until the next -/
  cfg : Word32
  /-- codewords sent, modulo 16,384 (R348) -/
  txWords : BitVec 14
  /-- equaliser settings in force by lane, and those of the last entry into ACTIVE (R370) -/
  eq : SMap EqSet
  eqGood : SMap EqSet
deriving DecidableEq, Repr

/-- A margin sweep (R369, R370). -/
structure Margin where
  kind : Bool
  lane : BitVec 4
  dwell : BitVec 5
  state : BitVec 2
  reason : BitVec 2
  refused : Bool
  points : Nat
  results : SMap Word32
  /-- the KIND, LANE and DWELL with which the sweep runs, and the lane's settings as it started -/
  runKind : Bool
  runLane : BitVec 4
  runDwell : BitVec 5
  saved : EqSet
deriving DecidableEq, Repr

/-- A packet waiting at the egress stage (R360–R364). -/
structure OutPkt where
  pkt : Pkt
  /-- the ingress it came from, none where it is made on this device -/
  ingress : Option Nat
  since : Word
  /-- held by a failover hold (R361) -/
  held : Bool
  /-- the age stamp (R306, R362) -/
  stamp : BitVec 16
deriving DecidableEq, Repr

/-- A remote post message that has drawn neither acceptance nor NACK (R295). -/
structure PostOut where
  txid : BitVec 32
  src : TileId
  srcCtx : Bool
  seq : BitVec 32
  tag : BitVec 16
  destWord : BitVec 32
  issued : Word
deriving DecidableEq, Repr

/-- An arbiter that a message has still to pass: its class, its instance, and the input at which it requests (R303). -/
structure ArbHop where
  cls : Nat
  inst : Nat
  input : Nat
deriving DecidableEq, Repr

/-- A message on the post plane (R290, R306): the arbiters that have not granted it yet, the age stamp and the OLD bit that travel
with it, and the TXID of the packet that brought it where it comes from another device. -/
structure PlaneMsg where
  msg : PostMsg
  txid : Option (BitVec 32)
  path : List ArbHop
  stamp : BitVec 16
  old : Bool
deriving DecidableEq, Repr

/-- A message that is landing (R292): the ring offset at which it starts, and the bytes of header and payload that have landed. -/
structure Landing where
  msg : PlaneMsg
  start : Nat
  done : Nat
deriving DecidableEq, Repr

/-- The post plane (R290, R295): messages on their way, oldest first; those that are landing, one to a tile; refusals on their way to
their sender's NACK ring; answers that arrived from other devices. -/
structure PostPlane where
  msgs : List PlaneMsg
  landing : List Landing
  nacks : List NackMsg
  acks : List PostAck
deriving DecidableEq, Repr

/-- What a port puts on its lanes, oldest first: the auto-negotiation pages with its abilities (the 200 Gb/s rate, SPLIT, the Usmal
versions; R347, R367), or a codeword, the symbols of each lane in order (R348). The model's own record of its outputs. -/
inductive WireOut where
  | an (egress : Nat) (rate200 : Bool) (split : Bool) (versions : BitVec 2)
  | codeword (egress : Nat) (lanes : List (List (BitVec 10)))
deriving DecidableEq, Repr

/-- The fabric (R346–R370). -/
structure Fabric where
  devValid : Bool
  devRefused : Bool
  devId : BitVec 15
  portCfg : SMap Word32
  halves : SMap Half
  counters : SMap Word32
  margins : SMap Margin
  routes : SMap (BitVec 128)
  rtIdx : BitVec 15
  rtData : SMap Word32
  rtHost : Bool
  rtRefused : Bool
  timeouts : Word32
  fwd : Word32
  late : BitVec 31
  xctl : Word32
  outq : List OutPkt
  /-- packets accepted at an ingress, oldest first -/
  rxPkts : List RxPkt
  /-- firmware messages handed to the management processor (R355) -/
  ctrlIn : List Pkt
  wire : List WireOut
  /-- failover holds: destination and the rc at which each ends (R361) -/
  holds : List (Nat × Word)
  /-- the effective primary that a destination last had -/
  lastPrimary : SMap Nat
  postOut : List PostOut
  /-- outstanding firmware control requests: peer and tries (R364) -/
  ctrlReqs : List (BitVec 15 × Nat)
  unreachable : List Nat
  /-- the links and the TN6 devices that discovery has found (R363, R373) -/
  topo : List TopoLink
  tn6 : List Nat
deriving DecidableEq, Repr

/-- The edge to one child of a sync tree (R381–R384), in force and pending. -/
structure XEdge where
  valid : Bool
  meas : Bool
  child : BitVec 15
  lat : BitVec 12
  pendMeas : Bool
  pendLat : BitVec 12
deriving DecidableEq, Repr

/-- A zone's external sync group on this device (R373–R384). -/
structure XGroup where
  /-- the root's device id (R379): as GROUP_CREATE names it; of a group that registers configure this device's own at the root, its
  parent's at depth 1, and otherwise one that the registers do not hold, a free value -/
  root : BitVec 15
  cfg : Word32
  tree : Word32
  state : BitVec 2
  cause : BitVec 4
  phase : BitVec 8
  /-- SEQ of the last barrier released -/
  seq : BitVec 12
  pathMeas : Bool
  path : BitVec 20
  pendPathMeas : Bool
  pendPath : BitVec 20
  dmax : BitVec 20
  pendDmax : Option (BitVec 20)
  calState : BitVec 2
  breakIndex : BitVec 15
  measured : BitVec 15
  breakReason : BitVec 2
  breakDev : BitVec 15
  breakPeer : BitVec 15
  late : BitVec 16
  edges : SMap XEdge
  /-- children whose ARRIVE for the next barrier is here, with its PHASE -/
  kids : List (BitVec 15 × BitVec 8)
  /-- the member zone's last local arrival is counted -/
  localIn : Bool
  arriveSent : Bool
  /-- steps of 0.625 ns the device still waits before its release (R376) -/
  wait : Option Nat
  /-- flags and PHASE of the last RELEASE -/
  relFlags : BitVec 4
  relPhase : BitVec 8
  /-- the edge being measured, the ECHOs in, the sum of their round trips in ns, and resends of the missing one -/
  walk : Option (Nat × Nat × Nat × Nat)
  chain : Nat
  nextChain : Nat
  maxPath : Nat
  /-- a sweep runs once the next release has gone (R384) -/
  newcal : Bool
deriving DecidableEq, Repr

/-! ### Power, the chip block, pins, and the debug port (R388–R407, R432–R453, R470–R477) -/

/-- A phase record and its phase-table entry (R394, R398, R402). -/
structure PhaseRec where
  d : BitVec 16
  cls : BitVec 3
  floor : Bool
  k : BitVec 6
  q : BitVec 5
  n : BitVec 8
  dur : BitVec 24
deriving DecidableEq, Repr

/-- The power governor's view of a zone: its share in W scaled by 2^32, its current entry, and the phase under way
with the energy and time at its start (R397, R399, R402). -/
structure ZonePower where
  share : Int
  k : BitVec 6
  q : BitVec 5
  phaseRec : Option Nat
  e0 : Word
  t0 : Word
  /-- the predicted-power integral at its start (R402) -/
  p0 : Nat
  /-- the records of other zones whose phases overlap it (R402) -/
  overlaps : List Nat
deriving DecidableEq, Repr

/-- One compute die's thermal side (R405, R406). -/
structure DieTherm where
  cap : BitVec 6
  maxT : BitVec 8
  /-- last accepted reading of each sensor, offset by 64, and the excluded sensors -/
  sensors : SMap (Option Int)
  excluded : List Nat
  vcore : BitVec 10
  /-- the voltage last confirmed by READ_VOUT (R452) -/
  vconfirmed : BitVec 10
  /-- cap codes left less than 1 ms ago, each with the rc at which the voltage may follow (R401) -/
  lowered : List (Word × BitVec 6)
deriving DecidableEq, Repr

/-- What the management processor takes up after the command that waits for its domains (R389): a write of PWR_DOM_REQ_w, or an
idle domain. -/
inductive DomWork where
  | request (w : Nat) (v : Word32)
  | idle (dom : Nat)
deriving DecidableEq, Repr

/-- Power domains, governor, energy and heat (R388–R407). `on` lists the domains whose state differs from on. -/
structure Power where
  cap : BitVec 12
  govCfg : Word32
  excess : Bool
  hbmThr : Bool
  ready : Bool
  draw : BitVec 12
  energy : Word
  /-- remainder of the energy count in half-microjoules (R404) -/
  energyRem : Nat
  excessCount : BitVec 31
  stretchPkg : Word32
  pkgDroop : Bool
  droopCfg : Word32
  weights : SMap (BitVec 8)
  thermCfg : Word32
  therm : SMap DieTherm
  thermTrip : Word32
  domCfg : Word32
  domOff : List Nat
  domReq : SMap Word32
  domRefuse : Word32
  /-- domains being switched on, in their order (R389, R391) -/
  domPending : List Nat
  /-- the started command that its family has not taken waits for domains (R389) -/
  domHold : Bool
  /-- requests and idle domains that arrived since (R389) -/
  domWork : List DomWork
  /-- the domains that were off when BASE was measured (R391, R393) -/
  baseOff : List Nat
  model : SMap (BitVec 16)
  recIdx : Word32
  recs : SMap PhaseRec
  zones : SMap ZonePower
  regionQ : SMap (BitVec 5)
  govFix : SMap (BitVec 6)
  /-- the excess condition held at the last sample (R403) -/
  excessCond : Bool
  /-- consecutive halves of a microsecond the 10 µs average has stayed under cap − guard (R403) -/
  calm : Nat
  /-- the last power samples in W, the latest first (R403) -/
  samples : List Nat
  hbmBad : SMap Nat
  /-- integral over time of the active records' predicted power, in the unit of `State.wattUnit` (R402) -/
  predInt : Nat
deriving DecidableEq, Repr

/-- A multifunction pin (R446–R450). -/
structure Pin where
  func : BitVec 4
  filter : BitVec 8
  /-- a change that waits for a transaction to end (R449) -/
  want : Option (BitVec 4)
  /-- parked since this rc (R448) -/
  parked : Option Word
  level : Bool
  /-- the rc at which the function started, whose filter window may still run (R448) -/
  startAt : Option Word
  /-- a forced switch of the pin has cut a transaction: an I²C function that starts clears the bus first (R449) -/
  busClear : Bool
deriving DecidableEq, Repr

/-- The CHIP block, resets, boot and pins (R432–R453). -/
structure Chip where
  fwVer : Word32
  imageSvn : BitVec 16
  source : BitVec 2
  stage : BitVec 4
  fail : BitVec 8
  failUnit : BitVec 8
  slot0 : BitVec 4
  slot1 : BitVec 4
  warmBusy : Bool
  keyArmed : Bool
  tileBusy : Bool
  cause : BitVec 9
  rcvState : BitVec 3
  rcvLen : Nat
  rcvData : List Byte
  /-- the firmware image kept in always-on RAM for warm resets (R439) -/
  ramImage : Option (List Byte)
  /-- PERST_N is low -/
  perst : Bool
  /-- power-good inputs that are high: 0 AON, 1 IO, 2 SRAM, 3 CORE_A, 4 CORE_B, 5 HBM, 6 SERDES -/
  pg : List Nat
  pgFenced : Bool
  powered : Bool
  pins : SMap Pin
  gpioOut : BitVec 24
  extRange : BitVec 16
  extTimeout : BitVec 16
  thermtripLow : Bool
  extest : Bool
  /-- the tile clocks are stopped for want of a reference (R41) -/
  refLost : Bool
  /-- retries of a boot-flash, PMBus or record-area handshake in progress (R453) -/
  retries : SMap Nat
  /-- external units marked unresponsive (R453) -/
  unresponsive : List Nat
  /-- fan duty in percent by pin, 100 until firmware sets one (R446) -/
  fanDuty : SMap Nat
  /-- the buses that have been cleared, oldest first: MFP port k, or 12 for the PMBus (R449, R453); the model's own record -/
  busClears : List Nat
  /-- the warm reset under way has FABRIC = 1 (R435) -/
  warmFabric : Bool
  /-- a warm reset that waits for a power-good input: its cause bit and FABRIC (R450) -/
  heldReset : Option (Nat × Bool)
  /-- the pins stand parked by power-on reset: the board configuration is still to be applied (R446) -/
  pinsDue : Bool
  tapIr : BitVec 8
  /-- the repair record in SPI flash: the spare maps that firmware last wrote there (R35). No reset of the device reaches it -/
  repairRec : List SpareFields
  /-- the regions of the last CHIP_RESET_REGION, whose steward or crossings may still be to come (R433) -/
  regionWait : BitVec 16
deriving DecidableEq, Repr

/-- The debug port and the DBG block (R470–R477). -/
structure Dbg where
  tapEn : Bool
  packageHalt : Bool
  tapHold : Bool
  abandoned : Bool
  tapBusy : Bool
  /-- an operation that waits for the management bus, by its OP (R311, R472) -/
  op : Option (Nat × DbgAcc)
  /-- the result the next Capture-DR captures: STATUS and DATA (R472) -/
  status : BitVec 8
  data : Word
deriving DecidableEq, Repr

/-- What is blown into the part: grade, stepping, ROM and fused values (R1, R2, R46, R199, R396, R441). Only the minimum SVN
is ever raised. -/
structure Fuses where
  /-- true: TN8-2048-288 -/
  grade288 : Bool
  stepping : BitVec 8
  stewardRom : BitVec 8
  /-- fused minimum SVN -/
  minSvn : BitVec 32
  keyHashes : SMap (BitVec 384)
  keyRevoked : List Nat
  /-- spare maps blown at manufacture (R35) -/
  spare : List SpareFields
  /-- VF_mV by die × 64 + code -/
  vf : SMap (BitVec 10)
  idcodeMfr : BitVec 11
deriving DecidableEq, Repr

/-! ### The whole state -/

/-- The state of the device, with the queue of waiting commands. -/
structure State where
  fuses : Fuses
  /-- the number of the next free value (assumption 1); the model's own field -/
  free : Nat
  /-- T_TIME (R201) -/
  time : Word
  tiles : SMap Tile
  /-- by 16 × region + cluster, the id bits 11:4 (R30) -/
  clusters : SMap Cluster
  regions : SMap Region
  zones : SMap Zone
  tracks : List TrackWord
  log : Log
  memory : Memory
  host : HostIf
  arb : Arb
  fabric : Fabric
  post : PostPlane
  xgroups : SMap XGroup
  power : Power
  chip : Chip
  dbg : Dbg
  /-- the commands that wait, the first at the front -/
  pending : List Instr
deriving DecidableEq, Repr

/-- Why the machine would stop with a fault. The manual gives every step of the block an outcome, so no meaning of
this model raises one; the type exists because the interface names it. Safe: nothing is ever lost by it. -/
inductive Fault where
  /-- raised by no meaning (safe) -/
  | none
deriving DecidableEq, Repr

/-- Why a command has no meaning in this model. -/
inductive Refusal where
  /-- the arm of a command whose meaning is not written yet, by its mnemonic (safe: a claim about it cannot be
  proved) -/
  | notModelled (mnemonic : String)
deriving DecidableEq, Repr

/-! ### Reset values -/

/-- A circular region after reset (R98, R437). -/
def CircReg.reset : CircReg :=
  { en := false, size := 0, base := 0, head := 0, tail := 0, full := false, overrun := false, underrun := false }

/-- A post ring's shadow after power-on (R437). -/
def PostRing.reset : PostRing :=
  { parked := false, resetSeen := false, drops := 0, count := 0, wptr := 0 }

/-- A context after power-on reset (R437, R203). -/
def Ctx.reset : Ctx :=
  { phase := .empty, pc := 0, regs := [], tcCount := 0, args := [], sig := [], ovf := 0, fpcsr := 0,
    stpKeyLo := 0, stpKeyHi := 0, stpCtl := 0, stpTn6 := 0, crs := [], rings := [], postEn := false,
    statusBase := 0, postSeq := 0, postQ := [], asid := 0, xlatVa := 0, xlatInfo := 0, xlatElem := 0,
    strmErr := 0, stream := [], streamHold := false, zone := 0, storesLive := false, lastEnd := 0, lastLz := 0,
    lastPhase := 0, supersteps := 0, lastReturn := 0, bubbles := 0, gate := .none, halted := false, steps := 0,
    skipMatch := false, haltPend := false, xfault := none, xue := none, stopPend := none, saving := false, resetPend := false,
    entry := 0, started := false, begun := false }

/-- An engine with nothing queued or running. -/
def EngQ.reset : EngQ := { queue := [], running := [], aborting := [] }

/-- An operand buffer that reads as zero (R211). -/
def OpBuf.reset : OpBuf := { n := 0, k32 := 0, fmt := 0, elems := [], plates := [] }

/-- A tile after power-on reset: both contexts EMPTY, the boundary at 16 (R70), everything else cleared (R437). -/
def Tile.reset : Tile :=
  { bound := 16, c0 := Ctx.reset, c1 := Ctx.reset, burin := EngQ.reset, stylus := EngQ.reset,
    stipple := EngQ.reset, xeng := EngQ.reset, vregs := [], opbuf := OpBuf.reset, acc := [], staging := [], ib := [], ibAt := none, fills := [],
    sp := [], spErr := [], scrubLine := 0, xch := none, ibp := [], wp := [], haltOnBrk := false, audit := false,
    dbgHit := 0 }

/-- A cluster controller after power-on (R46, R102). -/
def Cluster.reset : Cluster :=
  { spareFailed := false, secondFail := false, pend := none, active := none, pendReason := 0, scrubEn := true,
    scrubInterval := 2, spCe := [], spUe := 0, errEscalated := false, errPos := 0, errAction := 0, errWindows := 0,
    trq := [], trqLost := 0, qdrop := 0, spareSp := [], spareErr := [] }

/-- A crossing before calibration (R279). -/
def Crossing.reset : Crossing := { valid := false, depth := 0, wander := 0, slipped := false, recalPend := false, busy := false }

/-- A region after power-on (R46, R331, R482). -/
def Region.reset : Region :=
  { stewardOk := false, refLock := false, clkActive := 8, clkTarget := 8, xcalValid := false,
    slippedSticky := false, slipCount := 0, xings := [], bootCalDone := false, xmon := 0, 
    trcCtl := 0x30000000, trcTiles := [], trcLo := 0, trcHi := 0x3ffff, trcTag := 0, trcBuf := [], trcNext := 0,
    trcWrapped := false, trcSeq := 0, trcLost := 0, trcRdIdx := 0, trcCapture := 0, mcast := [], xlatRootLo := 0,
    xlatRootHi := 0, invDone := true, invMode := 0, invAsid := 0, invVaLo := 0, invVaHi := 0, xlatCache := [],
    droop := false, droopCount := 0, tcFrac := 0 }

/-- A sync zone no context belongs to. -/
def Zone.reset : Zone :=
  { job := 0, role := 0, pair := none, budget := 0, started := false, aborted := false, bar := .collecting,
    first := none, arrived := [], lz := 0, reqs := [], bubble := none, laneMask := 0, lanes := [], mcBase := 0,
    mcCount := 0, mcRegions := [], phaseNow := 0, evictWait := none, evictArea := 0, unpair := false }

/-- The empty log (R437, R461). -/
def Log.reset : Log :=
  { errs := [], alarms := [], staged := [], next := 0, dropped := 0, fullRaised := false, events := [], windows := [],
    fenced := false, fenceCause := 0, alarmCfg := 4, ceCfg := 0x10000100, hostErr := 0, logIdx := 0 }

/-- A stack before training (MEM_STATUS). -/
def Stack.reset : Stack :=
  { trained := false, selfRefresh := false, refDouble := false, temp := 0, ce := 0,
    poisonLo := 0, poisonHi := 0, openRows := [] }

/-- Package memory after power-on: zero granules with valid check values (R437). -/
def Memory.reset : Memory :=
  { bytes := [], gran := [], intlvMode := 0, intlvBusy := false, intlvRefused := false, hostWin := false, stks := [],
    reqs := [], nextTx := 0 }

/-- A queue that does not exist. -/
def CmdQueue.reset : CmdQueue :=
  { state := .none, cause := 0, sqSize := 0, cqSize := 0, sqBase := 0, cqBase := 0, vector := 0, coCount := 1,
    coTime := 0, sqHead := 0, sqTail := 0, cqHead := 0, cqTail := 0, phase := true, cqUsed := 0, started := [], sinceSignal := 0,
    firstSince := none }

/-- The host interface after power-on (R423, the CMDQ registers). System size 1 and zone map 0 until SET_CONFIG are
the model's choice (assumption 4). -/
def HostIf.reset : HostIf :=
  { power := .d0, major := 1, negotiated := false, ready := false, queues := [], waits := [], copies := [], turn := 0, out := [], held := [],
    adminEn := false, adminSq := 0, adminCq := 0, adminSize := 0, adminVec := 0x01000000, bar2Base := 0, sysSize := 1,
    zoneMap := 0, poolBase := 0, poolLen := 0, poolUsed := 0, msix := [], msixPend := [], pairHold := [],
    pairStage := [], saves := [], bar2Log := 6 }

/-- An arbiter instance at rest. -/
def ArbInst.reset : ArbInst := { gcount := 0, owners := [], reqs := [], adopt := false }

/-- The arbiters after reset: default maps, N = 8, SHIFT = 4 (R308, the ARB registers). -/
def Arb.reset : Arb :=
  { ageNow := 0, shift := 4, nShadow := [], nActive := [], nPending := [], mapShadow := [], mapActive := [],
    mapPending := [], insts := [], busy := false, refused := false, bad := false, badClass := 0, commits := 0,
    hold := false, granted := false, holdAbandoned := false, stat := [] }

/-- A half-port that is DOWN. -/
def Half.reset : Half :=
  { state := 0, version := 0, rate200 := false, peerTn6 := false, width := 0, peerEgress := 0, peerValid := false,
    peerDev := 0, pausing := false, txSeq := 0, unacked := [], rxNext := 0, rxSinceAck := 0, nakWait := false,
    credits := [], owed := [], rxProg := [], helloSent := false, helloGot := none, cfg := 0xA0000000, txWords := 0, eq := [],
    eqGood := [] }

/-- No margin sweep; DWELL 16 (FAB_MARGIN_CTL). -/
def Margin.reset : Margin :=
  { kind := false, lane := 0, dwell := 16, state := 0, reason := 0, refused := false, points := 0, results := [],
    runKind := false, runLane := 0, runDwell := 16, saved := .preset 0 }

/-- FAB_PORT_CFG after reset: EN = 1, MAX_VER = 2. -/
def portCfgReset : Word32 := 0xA0000000

/-- The fabric after power-on (the FAB registers). -/
def Fabric.reset : Fabric :=
  { devValid := false, devRefused := false, devId := 0, portCfg := [], halves := [], counters := [], margins := [],
    routes := [], rtIdx := 0, rtData := [], rtHost := false, rtRefused := false, timeouts := 0x00C800C8,
    fwd := 0x00140010, late := 0, xctl := 0x006407D0, outq := [], rxPkts := [], ctrlIn := [], wire := [], holds := [], lastPrimary := [],
    postOut := [], ctrlReqs := [], unreachable := [], topo := [], tn6 := [] }

/-- An empty post plane. -/
def PostPlane.reset : PostPlane := { msgs := [], landing := [], nacks := [], acks := [] }

/-- An edge that does not exist. -/
def XEdge.reset : XEdge := { valid := false, meas := false, child := 0, lat := 0, pendMeas := false, pendLat := 0 }

/-- A zone without an external sync group. -/
def XGroup.reset : XGroup :=
  { root := 0, cfg := 0, tree := 0, state := 0, cause := 0, phase := 0, seq := 0, pathMeas := false, path := 0,
    pendPathMeas := false, pendPath := 0, dmax := 0, pendDmax := none, calState := 0, breakIndex := 0, measured := 0,
    breakReason := 0, breakDev := 0, breakPeer := 0, late := 0, edges := [], kids := [], localIn := false,
    arriveSent := false, wait := none, relFlags := 0, relPhase := 0, walk := none, chain := 0, nextChain := 0, maxPath := 0,
    newcal := false }

/-- A phase record in its initial state (R394, PWR_REC_D0). -/
def PhaseRec.reset : PhaseRec := { d := 4096, cls := 6, floor := false, k := 42, q := 16, n := 0, dur := 0 }

/-- A zone's power settings before it is started. -/
def ZonePower.reset : ZonePower := { share := 0, k := 42, q := 16, phaseRec := none, e0 := 0, t0 := 0, p0 := 0, overlaps := [] }

/-- A die with no reading yet (PWR_THERM_STATUS). -/
def DieTherm.reset : DieTherm :=
  { cap := 42, maxT := 0, sensors := [], excluded := [], vcore := 0, vconfirmed := 0, lowered := [] }

/-- Power after power-on (the PWR registers). -/
def Power.reset : Power :=
  { cap := 2000, govCfg := 0x0028A994, excess := false, hbmThr := false, ready := false, draw := 0, energy := 0,
    energyRem := 0, excessCount := 0, stretchPkg := 0, pkgDroop := false, droopCfg := 0x00000402, weights := [],
    thermCfg := 0x00005F5F, therm := [], thermTrip := 0, domCfg := 0x80000064, domOff := List.range 207, domReq := [],
    domRefuse := 0, domPending := [], domHold := false, domWork := [], baseOff := [], excessCond := false, model := [], recIdx := 0, recs := [], zones := [], regionQ := [], govFix := [],
    calm := 0, samples := [], hbmBad := [], predInt := 0 }

/-- A parked pin (R446). -/
def Pin.reset : Pin :=
  { func := 0, filter := 0, want := none, parked := none, level := true, startAt := none, busClear := false }

/-- The CHIP block just after PG_AON has released power-on reset (R439, step 1). -/
def Chip.reset : Chip :=
  { fwVer := 0, imageSvn := 0, source := 0, stage := 1, fail := 0, failUnit := 0, slot0 := 0, slot1 := 0,
    warmBusy := false, keyArmed := false, tileBusy := false, cause := 1, rcvState := 0,
    rcvLen := 0, rcvData := [], ramImage := none, perst := true, pg := [0], pgFenced := false, powered := true,
    pins := [], gpioOut := 0, extRange := 0, extTimeout := 0, thermtripLow := false, extest := false, refLost := false,
    retries := [], unresponsive := [], fanDuty := [], busClears := [], warmFabric := false,
    heldReset := none, pinsDue := true, tapIr := 0xFE, repairRec := [], regionWait := 0 }

/-- The debug port after reset (DBG_CTL, DBG_STATUS). -/
def Dbg.reset : Dbg :=
  { tapEn := true, packageHalt := false, tapHold := false, abandoned := false, tapBusy := false, op := none, status := 0, data := 0 }

/-- The fuses of the part this model runs: the values the manual does not give are the model's choice
(assumption 3). -/
def Fuses.reset : Fuses :=
  { grade288 := false, stepping := 0, stewardRom := 0, minSvn := 0, keyHashes := [], keyRevoked := [], spare := [], vf := [],
    idcodeMfr := 0 }

/-- The device right after PG_AON has risen through its filter: power-on reset released, step 1 of the boot sequence in
progress, nothing loaded, no command waiting (R432, R437, R439). -/
def State.reset : State :=
  { fuses := Fuses.reset, free := 0, time := 0, tiles := [], clusters := [], regions := [], zones := [], tracks := [],
    log := Log.reset, memory := Memory.reset, host := HostIf.reset, arb := Arb.reset, fabric := Fabric.reset,
    post := PostPlane.reset,
    xgroups := [], power := Power.reset, chip := Chip.reset, dbg := Dbg.reset, pending := [] }

end Sys2Proof.Machine
end

