-- ==== Sys2Proof/Machine/Ops.lean ====
section
/-! DEFINITION. The named operations over the state: units and their registers, free values, replies and host
outputs (R414, R415), the log (R461–R467), trace events (R482–R484) and halts (R474–R477). -/

namespace Sys2Proof.Machine

/-- The outcome of a command. -/
abbrev Res := Host.Outcome State Fault Refusal

/-! ### Units -/

/-- Package region of a tile: die × 8 + region (R30). -/
def regionOf (t : TileId) : Nat := t.toNat / 256
/-- Cluster index 16 × region + cluster of a tile. -/
def clusterOf (t : TileId) : Nat := t.toNat / 16
/-- Compute die of a tile (R30). -/
def dieOf (t : TileId) : Nat := t.toNat / 2048

def State.tile (s : State) (t : TileId) : Tile := SMap.get Tile.reset s.tiles t.toNat
def State.setTile (s : State) (t : TileId) (x : Tile) : State :=
  { s with tiles := SMap.put Tile.reset s.tiles t.toNat x }
def State.modTile (s : State) (t : TileId) (f : Tile → Tile) : State := s.setTile t (f (s.tile t))

def Tile.ctx (x : Tile) (c : Bool) : Ctx := if c then x.c1 else x.c0
def Tile.setCtx (x : Tile) (c : Bool) (y : Ctx) : Tile := if c then { x with c1 := y } else { x with c0 := y }

def State.ctx (s : State) (t : TileId) (c : Bool) : Ctx := (s.tile t).ctx c
def State.setCtx (s : State) (t : TileId) (c : Bool) (y : Ctx) : State := s.modTile t fun x => x.setCtx c y
def State.modCtx (s : State) (t : TileId) (c : Bool) (f : Ctx → Ctx) : State := s.setCtx t c (f (s.ctx t c))

def State.cluster (s : State) (i : Nat) : Cluster := SMap.get Cluster.reset s.clusters i
def State.modCluster (s : State) (i : Nat) (f : Cluster → Cluster) : State :=
  { s with clusters := SMap.put Cluster.reset s.clusters i (f (s.cluster i)) }
def State.region (s : State) (g : Nat) : Region := SMap.get Region.reset s.regions g
def State.modRegion (s : State) (g : Nat) (f : Region → Region) : State :=
  { s with regions := SMap.put Region.reset s.regions g (f (s.region g)) }
def State.zone (s : State) (z : BitVec 3) : Zone := SMap.get Zone.reset s.zones z.toNat
def State.modZone (s : State) (z : BitVec 3) (f : Zone → Zone) : State :=
  { s with zones := SMap.put Zone.reset s.zones z.toNat (f (s.zone z)) }
def State.xgroup (s : State) (z : BitVec 3) : XGroup := SMap.get XGroup.reset s.xgroups z.toNat
def State.modXgroup (s : State) (z : BitVec 3) (f : XGroup → XGroup) : State :=
  { s with xgroups := SMap.put XGroup.reset s.xgroups z.toNat (f (s.xgroup z)) }
def State.half (s : State) (e : Nat) : Half := SMap.get Half.reset s.fabric.halves e
def State.modHalf (s : State) (e : Nat) (f : Half → Half) : State :=
  { s with fabric := { s.fabric with halves := SMap.put Half.reset s.fabric.halves e (f (s.half e)) } }
def State.queue (s : State) (q : Nat) : CmdQueue := SMap.get CmdQueue.reset s.host.queues q
def State.modQueue (s : State) (q : Nat) (f : CmdQueue → CmdQueue) : State :=
  { s with host := { s.host with queues := SMap.put CmdQueue.reset s.host.queues q (f (s.queue q)) } }
def State.stack (s : State) (m : Nat) : Stack := SMap.get Stack.reset s.memory.stks m
def State.modStack (s : State) (m : Nat) (f : Stack → Stack) : State :=
  { s with memory := { s.memory with stks := SMap.put Stack.reset s.memory.stks m (f (s.stack m)) } }
def State.dieTherm (s : State) (d : Nat) : DieTherm := SMap.get DieTherm.reset s.power.therm d
def State.modDie (s : State) (d : Nat) (f : DieTherm → DieTherm) : State :=
  { s with power := { s.power with therm := SMap.put DieTherm.reset s.power.therm d (f (s.dieTherm d)) } }

def Ctx.reg (y : Ctx) (r : RegNo) : Word := if r = 0 then 0 else SMap.get 0 y.regs r.toNat
/-- A write of s0 is discarded (R47, R173). -/
def Ctx.setReg (y : Ctx) (r : RegNo) (v : Word) : Ctx :=
  if r = 0 then y else { y with regs := SMap.put 0 y.regs r.toNat v }
def Ctx.cr (y : Ctx) (n : Nat) : CircReg := SMap.get CircReg.reset y.crs n
def Ctx.setCr (y : Ctx) (n : Nat) (c : CircReg) : Ctx := { y with crs := SMap.put CircReg.reset y.crs n c }
def Ctx.ring (y : Ctx) (k : Nat) : PostRing := SMap.get PostRing.reset y.rings k
def Ctx.setRing (y : Ctx) (k : Nat) (r : PostRing) : Ctx := { y with rings := SMap.put PostRing.reset y.rings k r }
def Ctx.sigOf (y : Ctx) (i : BitVec 4) : BitVec 4 := SMap.get 0 y.sig i.toNat
def Tile.vreg (x : Tile) (v : RegNo) : BitVec 1024 := SMap.get 0 x.vregs v.toNat
def Tile.setVreg (x : Tile) (v : RegNo) (d : BitVec 1024) : Tile := { x with vregs := SMap.put 0 x.vregs v.toNat d }

/-- Clusters whose code is valid in the grade: 0–8, or 0–7 in the TN8-2048-288 (R1, R2). -/
def State.clusterCount (s : State) : Nat := if s.fuses.grade288 then 8 else 9
/-- Active tiles of the grade (R1). -/
def State.activeTiles (s : State) : Nat := 256 * s.clusterCount
/-- A logical tile id of the grade (R31). -/
def State.validTile (s : State) (t : TileId) : Bool := bits t.toNat 4 4 < s.clusterCount
/-- Capacity of package memory in bytes (R314). -/
def State.capacity (s : State) : Nat := if s.fuses.grade288 then 0x4800000000 else 0x6000000000

/-- The physical position that carries a tile (R32). -/
def State.posOf (s : State) (t : TileId) : Nat :=
  if (s.cluster (clusterOf t)).active = some (t.extractLsb' 0 4) then 16 else bits t.toNat 0 4

/-- The package's cluster-power-domain number of a tile (R388). -/
def domainOf (t : TileId) : Nat := 9 * regionOf t + bits t.toNat 4 4
def State.domainOn (s : State) (d : Nat) : Bool := !s.power.domOff.contains d

/-- Physical base and size in bytes of a context's partition (R70). -/
def Tile.partBase (x : Tile) (c : Bool) : Nat := if c then x.bound * 65536 else 0
def Tile.partSize (x : Tile) (c : Bool) : Nat := if c then (32 - x.bound) * 65536 else x.bound * 65536

/-- The active context of a tile, if there is one (R64). -/
def Tile.active (x : Tile) : Option Bool :=
  if x.c0.phase = .active then some false else if x.c1.phase = .active then some true else none

/-- A context is a member of its zone unless it is EMPTY (R243, R244). -/
def Ctx.member (y : Ctx) (z : BitVec 3) : Bool := decide (y.phase ≠ .empty) && decide (y.zone = z)

/-- The member contexts of a zone, in tile order. -/
def State.members (s : State) (z : BitVec 3) : List (TileId × Bool) :=
  s.tiles.flatMap fun p =>
    (if p.2.c0.member z then [(BitVec.ofNat 12 p.1, false)] else []) ++
    (if p.2.c1.member z then [(BitVec.ofNat 12 p.1, true)] else [])

/-- Apply a change to each unit of a list in turn. -/
def State.each {α : Type} (s : State) (l : List α) (f : State → α → State) : State := l.foldl f s

/-! ### Free values -/

/-- The next free value, reduced to `w` bits (assumption 1). -/
def State.freeBits (s : State) (w : Nat) : BitVec w := BitVec.ofNat w (Config.freeValue s.free)
/-- The state after a free value has been taken. -/
def State.tookFree (s : State) : State := { s with free := s.free + 1 }

/-! ### Host outputs and replies (R408, R414, R415, R419) -/

/-- An output to the host; it waits while the function is not in D0 (R408). -/
def State.emit (s : State) (o : HostOut) : State :=
  if s.host.power = .d0 then { s with host := { s.host with out := s.host.out ++ [o] } }
  else { s with host := { s.host with held := s.host.held ++ [o] } }

/-- The reset value of an MSI-X table entry: masked, as the PCIe base specification has it (assumption 5). -/
def msixReset : BitVec 128 := 1#128 <<< 96

/-- Signal a vector: sent, or pending while its mask bit is set (R411). -/
def State.signalVector (s : State) (v : Nat) : State :=
  if (SMap.get msixReset s.host.msix v).getLsbD 96 then
    { s with host := { s.host with msixPend := if s.host.msixPend.contains v then s.host.msixPend
                                               else v :: s.host.msixPend } }
  else s.emit (.msix v)

/-- The 32 bytes of a reply (R419). -/
def replyEntry (seq : BitVec 32) (status sqHead queue : Nat) (phase : Bool) (opcode : BitVec 16) (detail : Nat)
    (result : BitVec 128) : BitVec 256 :=
  BitVec.ofNat 256 (packAt 0 [(0, seq.toNat), (4, status % 65536), (6, sqHead), (8, queue), (9, b2n phase),
    (10, opcode.toNat), (12, detail % 2 ^ 32), (16, result.toNat)])

/-- A field of `n` bytes at offset `off` of a command packet. -/
def cmdField (p : BitVec 512) (off n : Nat) : Nat := bits p.toNat (8 * off) (8 * n)

/-- The entry of a started command (R414). -/
def CmdQueue.entry (q : CmdQueue) (seq : BitVec 32) (opcode : BitVec 16) : Option Started :=
  q.started.find? fun e => e.seq = seq && e.opcode = opcode

/-- A queue with one more reply in its completion ring: its vector is signalled or not as its coalescing says (R415). -/
def CmdQueue.replied (q : CmdQueue) (seq : BitVec 32) (opcode : BitVec 16) (now : Bool) (time : Word) : CmdQueue :=
  let wrap := decide (q.cqTail + 1 ≥ q.cqSize)
  { q with
    cqTail := if wrap then 0 else q.cqTail + 1
    phase := if wrap then !q.phase else q.phase
    cqUsed := q.cqUsed + 1
    started := eraseFirst (fun e => e.seq = seq && e.opcode = opcode) q.started
    sinceSignal := if now then 0 else q.sinceSignal + 1
    firstSince := if now then none else q.firstSince <|> some time }

/-- Write one reply; a queue that no longer exists draws none (R415, R417). -/
def State.replyOne (s : State) (h : CmdHdr) (opcode : BitVec 16) (status detail : Nat) (result : BitVec 128) : State :=
  let q := s.queue h.queue
  if q.state = .none then s
  else
    let res := if status = 0 ∨ status = 0xE ∨ status = 0x10A then result else 0
    let irq := match q.entry h.seq opcode with
      | some e => e.packet.getLsbD 25
      | none => h.irq
    let s := s.emit (.reply h.queue q.cqTail (replyEntry h.seq status q.sqHead h.queue q.phase opcode detail res))
    let now := irq || decide (q.sinceSignal + 1 ≥ max 1 q.coCount)
    let s := s.modQueue h.queue fun _ => q.replied h.seq opcode now s.time
    if now then s.signalVector q.vector else s

/-- A queue that is being deleted ends when every command it has started has replied; QUEUE_DELETE then replies (R417). -/
def State.queueEnds (s : State) (q : Nat) : State :=
  if (s.queue q).state = .deleting ∧ (s.queue q).started = [] then
    let s := s.modQueue q fun _ => CmdQueue.reset
    let dels := s.host.waits.filter fun w => w.kind = .queueDelete q
    let s := { s with host := { s.host with waits := s.host.waits.filter fun w => w.kind ≠ WaitKind.queueDelete q } }
    s.each dels fun s w => s.replyOne w.hdr w.opcode 0 0 0
  else s

/-- Opcodes with this bit are the debug port's operations, whose answer the next Capture-DR captures (R472). -/
def isTapOp (opcode : BitVec 16) : Bool := opcode.getLsbD 15

/-- The result of a DBGACC operation: STATUS 0 OK, 3 FAULT with the code of R323, 4 STATE (R472). -/
def State.tapReply (s : State) (status detail : Nat) (result : BitVec 128) : State :=
  let st : BitVec 8 := if status = 0 then 0 else if status = 0xE then 3 else 4
  let data : Word := if status = 0 then result.extractLsb' 0 64 else if status = 0xE then BitVec.ofNat 64 detail else 0
  { s with dbg := { s.dbg with tapBusy := false, op := none, status := st, data := data } }

/-- Reply to a command of a queue (R414, R415, R417, R419). -/
def State.queueReply (s : State) (h : CmdHdr) (opcode : BitVec 16) (status detail : Nat) (result : BitVec 128) : State :=
  ((s.replyOne h opcode status detail result).queueEnds h.queue).queueEnds 0

/-- Reply to a command, or end a debug port operation. -/
def State.reply (s : State) (h : CmdHdr) (opcode : BitVec 16) (status detail : Nat) (result : BitVec 128) : State :=
  if isTapOp opcode then s.tapReply status detail result else s.queueReply h opcode status detail result

def State.ok (s : State) (h : CmdHdr) (opcode : BitVec 16) (result : Nat := 0) : State :=
  s.reply h opcode 0 0 (BitVec.ofNat 128 result)
def State.fail (s : State) (h : CmdHdr) (opcode : BitVec 16) (status : Nat) (detail : Nat := 0) : State :=
  s.reply h opcode status detail 0

/-- Status codes (R421). -/
def stField := 0x2
def stTimeout := 0x5
def stAborted := 0x6
def stBadTile := 0x8
def stBadAddr := 0x9
def stMemBusy := 0xA
def stNotRoot := 0xB
def stState := 0xC
def stNoSpace := 0xD
def stXfer := 0xE

/-- Remove a waiting command. -/
def State.unwait (s : State) (w : Waiter) : State :=
  { s with host := { s.host with waits := eraseFirst (fun x => x = w) s.host.waits } }
/-- Make a command wait. -/
def State.wait (s : State) (h : CmdHdr) (opcode : BitVec 16) (k : WaitKind) (deadline : Option Word := none) : State :=
  { s with host := { s.host with waits := s.host.waits ++ [{ hdr := h, opcode := opcode, kind := k, deadline := deadline }] } }

/-! ### The log (R461–R467) -/

/-- The 16 bytes of a record's event (R463). -/
def eventOf (r : Record) : BitVec 128 :=
  BitVec.ofNat 128 (packAt 0 [(0, r.index.toNat), (4, r.code),
    (6, r.cls + 4 * b2n r.escalated + 8 * b2n r.absorbed + 16 * b2n r.multiUnit), (7, r.level), (8, r.unit % 65536),
    (10, b2n r.ctx + 2 * r.pos), (11, r.action), (12, r.firstRc.toNat % 2 ^ 32)])

/-- The 64 bytes of a record (R461). -/
def recordBytes (r : Record) : BitVec 512 :=
  BitVec.ofNat 512 (packAt 0 [(0, r.index.toNat), (4, r.count.toNat), (8, r.firstRc.toNat), (16, r.lastRc.toNat),
    (24, r.code), (26, r.cls + 4 * b2n r.escalated + 8 * b2n r.absorbed + 16 * b2n r.multiUnit), (27, r.level),
    (28, r.unit % 65536), (30, b2n r.ctx + 2 * r.pos), (31, r.action), (32, r.detail.toNat)])

/-- Hand the oldest held event to the EVENT_WAIT that started first (R424, R463). -/
def State.pumpEvent (s : State) : State :=
  match s.log.events, s.host.waits.find? (fun w => w.kind = .event) with
  | e :: r, some w => ({ s with log := { s.log with events := r } }.unwait w).ok w.hdr w.opcode e.toNat
  | _, _ => s

/-- Add an event to those held (R463). -/
def State.addEvent (s : State) (r : Record) : State :=
  { s with log := { s.log with events := s.log.events ++ [eventOf r] } }.pumpEvent

/-- Two alarms that coalesce: same CODE, LEVEL, UNIT and byte 30 (R466). -/
def sameAlarm (a b : Record) : Bool :=
  decide (a.code = b.code) && decide (a.level = b.level) && decide (a.unit = b.unit) && decide (a.ctx = b.ctx) &&
  decide (a.pos = b.pos)

/-- An external handshake has passed its bound: CHIP_EXT_FAULT.TIMEOUT counts it (R453). -/
def State.countTimeout (s : State) : State :=
  { s with chip := { s.chip with extTimeout := satInc s.chip.extTimeout } }

/-- A later occurrence coalesced into a record. -/
def coalesce (a b : Record) : Record := { a with count := satInc a.count, lastRc := b.lastRc }

/-- Raise an alarm: it enters the staging record of its code and unit (R467). -/
def State.alarm (s : State) (code level unit : Nat) (detail : Nat := 0) (ctx : Bool := false) (pos : Nat := 0)
    (action : Nat := 0) : State :=
  let r : Record :=
    { index := 0, count := 1, firstRc := s.time, lastRc := s.time, code := code, cls := 2,
      escalated := false, absorbed := false, multiUnit := false, level := level, unit := unit, ctx := ctx, pos := pos,
      action := action, detail := BitVec.ofNat 256 detail, catchAll := false, key := 0 }
  if s.log.staged.any (sameAlarm r) then
    { s with log := { s.log with staged := updateWhere (sameAlarm r) (coalesce · r) s.log.staged } }
  else { s with log := { s.log with staged := s.log.staged ++ [r] } }

/-- A new error record. A full section drops it, counts it, and raises LOGFULL once (R466). -/
def State.logNew (s : State) (r : Record) : State :=
  if s.log.errs.length < 7168 then
    let r := { r with index := s.log.next, firstRc := s.time, lastRc := s.time }
    { s with log := { s.log with errs := s.log.errs ++ [r], next := s.log.next + 1 } }.addEvent r
  else
    let s' := { s with log := { s.log with dropped := satInc s.log.dropped, fullRaised := true } }
    if s.log.fullRaised then
      let bump (a : Record) : Record :=
        if a.code = 0x701 then { a with detail := satInc (a.detail.extractLsb' 0 32) |>.zeroExtend 256 } else a
      { s' with log := { s'.log with alarms := s'.log.alarms.map bump, staged := s'.log.staged.map bump } }
    else s'.alarm 0x701 3 0 1

/-- Make an error record of class PROGRAM, HARDWARE or RECOVERY (R461). -/
def State.record (s : State) (code cls level unit : Nat) (ctx : Bool) (pos action detail : Nat)
    (absorbed : Bool := false) (key : Nat := 0) : State :=
  s.logNew
    { index := 0, count := 1, firstRc := s.time, lastRc := s.time, code := code, cls := cls,
      escalated := false, absorbed := absorbed, multiUnit := false, level := level, unit := unit, ctx := ctx, pos := pos,
      action := action, detail := BitVec.ofNat 256 detail, catchAll := false, key := key }

/-- DETAIL from (byte offset, value) pairs, offsets as R462 counts them. -/
def detail (l : List (Nat × Nat)) : Nat := packAt 32 l

/-- A program fault's record; faults of one zone that share CODE and superstep coalesce (R465). -/
def State.programRecord (s : State) (code : Nat) (t : TileId) (c : Bool) (action det : Nat) : State :=
  let y := s.ctx t c
  let key := 1 + y.zone.toNat + 8 * y.supersteps.toNat
  let same (r : Record) : Bool := decide (r.code = code) && decide (r.key = key) && decide (r.cls = 0)
  if s.log.errs.any same then
    let again (r : Record) : Record := { r with count := satInc r.count, lastRc := s.time, multiUnit := true }
    { s with log := { s.log with errs := updateWhere same again s.log.errs } }
  else s.record code 0 0 t.toNat c (s.posOf t) action det false key

/-- Open a recovery window unless the unit's is open (R457, R459, R500). -/
def State.openWindow (s : State) (level unit : Nat) (tile : TileId) (ctx : Bool) (program : Bool) (action : Nat)
    (rec1 : Option (BitVec 32)) : State :=
  if s.log.windows.any (fun w => w.level = level && w.unit = unit) then s
  else
    let w : Window :=
      { level := level, unit := unit, tile := tile, ctx := ctx, opened := s.time,
        rec1 := rec1, rec2 := none, program := program,
        action := action }
    { s with log := { s.log with windows := s.log.windows ++ [w] } }

/-! ### Trace (R482–R484) -/

/-- Queue a trace event in its cluster's source queue; a full queue loses its oldest (R468). -/
def State.pushTrace (s : State) (t : TileId) (c : Bool) (type payload : Nat) : State :=
  let e : TraceEvent := { time := s.time, tile := t, ctx := c, type := type, payload := BitVec.ofNat 160 payload }
  s.modCluster (clusterOf t) fun k =>
    if k.trq.length < 16 then { k with trq := k.trq ++ [e] }
    else { k with trq := k.trq.drop 1 ++ [e], trqLost := k.trqLost + 1, qdrop := satInc k.qdrop }

/-- The filters every event but LOST and HALT must pass (R484). -/
def State.tracePass (s : State) (t : TileId) (c : Bool) (type : Nat) : Bool :=
  let r := s.region (regionOf t)
  r.trcCtl.getLsbD 31 &&
  (type = 6 || type = 7 ||
    (r.trcCtl.getLsbD type && r.trcCtl.getLsbD (if c then 29 else 28) &&
      (SMap.get 0xFFFF r.trcTiles (bits t.toNat 4 4)).getLsbD (bits t.toNat 0 4)))

/-- Record an event of a tile, payload bytes 12–31 given by (offset, value) pairs (R483). -/
def State.trace (s : State) (t : TileId) (c : Bool) (type : Nat) (l : List (Nat × Nat)) : State :=
  if s.tracePass t c type then s.pushTrace t c type (packAt 12 l) else s

/-- A POST event passes the tag filter as well (R484). -/
def State.tracePost (s : State) (t : TileId) (c : Bool) (tag : BitVec 16) (l : List (Nat × Nat)) : State :=
  let r := s.region (regionOf t)
  if tag &&& r.trcTag.extractLsb' 16 16 = r.trcTag.extractLsb' 0 16 then s.trace t c 4 l else s

/-! ### Halts (R474–R477) -/

/-- Mark a context halted and record the cause in T_DBG_HIT, with a HALT event (R477). The instruction that stopped at a
breakpoint or a BRK is issued next without matching again (R476). -/
def State.haltCtx (s : State) (t : TileId) (c : Bool) (cause unit code : Nat) : State :=
  let pc := (s.ctx t c).pc.toNat
  let hit := bits pc 0 21 * 2 ^ 32 + code * 65536 + b2n c * 256 + unit * 16 + cause
  let s := (s.modCtx t c fun y =>
      { y with halted := true, steps := 0, skipMatch := y.skipMatch || decide (cause = 3) || decide (cause = 5) }).modTile t
    fun x => { x with dbgHit := BitVec.ofNat 64 hit }
  s.trace t c 6 [(12, cause), (13, unit), (16, bits pc 0 32), (20, code)]

/-- Every context of a list of tiles. -/
def bothCtx (l : List TileId) : List (TileId × Bool) := l.flatMap fun t => [(t, false), (t, true)]

/-- Contexts marked halted (DBG_STATUS). -/
def State.haltedList (s : State) : List (TileId × Bool) :=
  s.tiles.flatMap fun p =>
    (if p.2.c0.halted then [(BitVec.ofNat 12 p.1, false)] else []) ++
    (if p.2.c1.halted then [(BitVec.ofNat 12 p.1, true)] else [])

end Sys2Proof.Machine
end

