-- ==== Sys2Proof/Machine/Bytes.lean ====
section
/-! DEFINITION. The bytes and check bits of a scratchpad (R70, R72, R99–R102) and the instruction buffer (R50–R52, R68). -/

namespace Sys2Proof.Machine

/-! ### Bytes -/

/-- Read `n` bytes from a physical address; an unlisted byte is zero (R437). -/
def memRead (m : List Host.Cell) (a : Nat) : Nat → List Byte
  | 0 => []
  | n + 1 => SMap.get 0 m a :: memRead m (a + 1) n

/-- Write bytes from a physical address. -/
def memWrite (m : List Host.Cell) (a : Nat) : List Byte → List Host.Cell
  | [] => m
  | b :: r => memWrite (SMap.put 0 m a b) (a + 1) r

/-- A byte list in canonical form: addresses rise strictly and no listed byte is zero. -/
def memWf : List Host.Cell → Bool
  | [] => true
  | [(_, v)] => v ≠ 0
  | (a, v) :: (b, w) :: r => v ≠ 0 && a < b && memWf ((b, w) :: r)

/-- The aligned 8-byte words that `n` bytes from `a` touch. -/
def wordsOf (a n : Nat) : List Nat := if n = 0 then [] else (List.range ((a + n - 1) / 8 - a / 8 + 1)).map (a / 8 + ·)

def Tile.wordErr (x : Tile) (w : Nat) : WordErr := SMap.get .ok x.spErr w
def WordErr.bad : WordErr → Bool
  | .uncorrectable | .poisoned => true
  | _ => false

/-- The first word with an uncorrectable error among those an access touches. -/
def Tile.badWord (x : Tile) (a n : Nat) : Option Nat := (wordsOf a n).find? fun w => (x.wordErr w).bad

/-- Check bits after a write of `n` bytes at `a`: a whole word is stored afresh; a partial write repairs a single-bit
error and leaves an uncorrectable word as it is (R99, R101). -/
def errAfterWrite (e : SMap WordErr) (a n : Nat) : SMap WordErr :=
  (wordsOf a n).foldl (fun e w =>
    let whole := decide (a ≤ 8 * w) && decide (8 * w + 8 ≤ a + n)
    let old := SMap.get .ok e w
    SMap.put .ok e w (if whole || old = .single then .ok else old)) e

/-- Write bytes at a physical address, with their check bits. -/
def Tile.write (x : Tile) (a : Nat) (l : List Byte) : Tile :=
  { x with sp := memWrite x.sp a l, spErr := errAfterWrite x.spErr a l.length }

/-- Mark the words of `n` bytes at `a` with an error state (R101). -/
def Tile.markWords (x : Tile) (a n : Nat) (e : WordErr) : Tile :=
  { x with spErr := (wordsOf a n).foldl (fun m w => SMap.put .ok m w e) x.spErr }

def Tile.read (x : Tile) (a n : Nat) : List Byte := memRead x.sp a n

/-! ### Corrected and uncorrectable errors (R99, R102, R466) -/

/-- Count corrected errors of a position and raise SP_CE_THRESH at the crossing of the threshold. -/
def State.countCe (s : State) (t : TileId) (n : Nat) : State :=
  if n = 0 then s
  else
    let k := clusterOf t
    let p := s.posOf t
    let old := (SMap.get 0 (s.cluster k).spCe p).toNat
    let new := min 0xFFFF (old + n)
    let s := s.modCluster k fun c => { c with spCe := SMap.put 0 c.spCe p (BitVec.ofNat 16 new) }
    let th := bits s.log.ceCfg.toNat 0 16
    if old < th ∧ th ≤ new then s.alarm 0x0204 1 (16 * k) (detail [(32, new)]) false p else s

/-- Single-bit errors that a read of `n` bytes corrects. -/
def Tile.singles (x : Tile) (a n : Nat) : Nat := ((wordsOf a n).filter fun w => x.wordErr w = .single).length

/-! ### Access by a context (R70, R72, R86) -/

/-- `n` bytes from a relative address lie in the partition (R72). -/
def Tile.inPart (x : Tile) (c : Bool) (a n : Nat) : Bool := decide (a + n ≤ x.partSize c)
/-- Physical address of a relative address (R70). -/
def Tile.phys (x : Tile) (c : Bool) (a : Nat) : Nat := x.partBase c + a

/-! ### The instruction buffer (R50–R52) -/

/-- The set of a line address (R50), and a fill: the line takes the place of the least recently used of its set. The list of lines is
ordered by use, the latest first. -/
def ibFill (l : List IbLine) (n : IbLine) : List IbLine :=
  let others := l.filter fun o => ¬ (o.ctx = n.ctx ∧ o.line = n.line)
  let same := others.filter fun o => o.line % 64 = n.line % 64
  let kept := if same.length < 4 then others
              else match same.getLast? with
                | some v => eraseFirst (fun o => o = v) others
                | none => others
  n :: kept

/-- The buffered line that holds an instruction, where it is present: line address and context bit match (R50). -/
def Tile.ibLine (x : Tile) (c : Bool) (pc : Nat) : Option IbLine :=
  x.ib.find? fun l => decide (l.ctx = c) && decide (l.line = x.phys c pc / 128)

/-- The instruction word that the core executes at a relative address: the buffered copy where the line is present,
else the scratchpad's (R50–R52). -/
def Tile.fetchWord (x : Tile) (c : Bool) (pc : Nat) : Word :=
  let a := x.phys c pc
  match x.ibLine c pc with
  | some l => l.data.extractLsb' (a % 128 * 8) 64
  | none => BitVec.ofNat 64 (leNat (x.read a 8))

/-- A line of a partition as a fill reads it, with its uncorrectable word (R51, R100). -/
def Tile.lineOf (x : Tile) (c : Bool) (line : Nat) : IbLine :=
  { ctx := c, line := line, data := BitVec.ofNat 1024 (leNat (x.read (128 * line) 128)), ue := x.badWord (128 * line) 128 }

/-- A fill is started unless the line is present or on its way, or lies outside the context's partition (R51, R72). -/
def Tile.startFill (x : Tile) (c : Bool) (line : Nat) : Tile :=
  if x.fills.contains (c, line) || x.ib.any (fun l => decide (l.ctx = c) && decide (l.line = line)) ||
      !(decide (x.partBase c ≤ 128 * line) && x.inPart c (128 * line - x.partBase c) 128) then x
  else { x with fills := x.fills ++ [(c, line)] }

/-- F2 reads from the line of an instruction: the line is the latest used of its set, and with the first read of a line the fill of
the next sequential line starts if that is absent (R50, R51). -/
def Tile.touch (x : Tile) (c : Bool) (pc : Nat) : Tile :=
  match x.ibLine c pc with
  | some l =>
    let y := { x with ib := l :: x.ib.filter fun o => o ≠ l }
    if x.ibAt = some (c, l.line) then y else { y.startFill c (l.line + 1) with ibAt := some (c, l.line) }
  | none => x

/-- A fill ends: the line stands in the buffer as it read it. -/
def Tile.endFill (x : Tile) (c : Bool) (line : Nat) : Tile :=
  { x with ib := ibFill x.ib (x.lineOf c line), fills := x.fills.filter fun f => f ≠ (c, line) }

/-- The last part of a change of active context: the line of the incoming program counter is in the buffer, and no fill of the
outgoing context is on its way (R68). -/
def Tile.incomingLine (x : Tile) (c : Bool) : Tile :=
  let pc := (x.ctx c).pc.toNat
  let x := { x with fills := [], ibAt := none }
  if x.inPart c (pc / 128 * 128) 128 && (x.ibLine c pc).isNone then x.endFill c (x.phys c pc / 128) else x

/-- The corrected words that the fill of `incomingLine` reads. -/
def Tile.incomingSingles (x : Tile) (c : Bool) : Nat :=
  let pc := (x.ctx c).pc.toNat
  if x.inPart c (pc / 128 * 128) 128 && (x.ibLine c pc).isNone then x.singles (x.phys c pc / 128 * 128) 128 else 0

/-- No line of a context is in the buffer or on its way (R52, R195, R426). -/
def Tile.dropLines (x : Tile) (c : Bool) : Tile :=
  { x with ib := x.ib.filter fun l => l.ctx ≠ c, fills := x.fills.filter fun f => f.1 ≠ c
           ibAt := match x.ibAt with
             | some a => if a.1 = c then none else some a
             | none => none }

end Sys2Proof.Machine
end

