-- ==== Sys2Proof/Machine/Packets.lean ====
section
/-! DEFINITION. Transport packets made on this device (R354, R355), the SYNC packets' fields (R374), and what a post message is as
bytes, as a packet, and when it is refused (R288, R295, R298). -/

namespace Sys2Proof.Machine

/-- Header bytes 0–27 with HOPS as given (R354). -/
def hdrNat (p : Pkt) (hops : Nat) : Nat :=
  p.type.toNat + 16 * p.len.toNat + 256 * hops + 16384 * b2n p.sr +
  packAt 0 [(2, p.pmask.toNat), (4, p.dest.toNat), (6, p.src.toNat), (8, p.txid.toNat), (12, p.addr.toNat),
    (20, p.args.toNat)]

/-- HCRC: the CRC-32C of header bytes 0–27 with HOPS taken as zero (R354). -/
def hcrcOf (p : Pkt) : BitVec 32 := crc32c (leBytes 28 (hdrNat p 0))

/-- The 64-byte granules of a packet's data. -/
def granules : Nat → List Byte → List (List Byte)
  | 0, _ => []
  | n + 1, l => sliceBytes l 0 64 :: granules n (l.drop 64)

/-- Write the header check and the check fields (R354). -/
def sealPkt (p : Pkt) : Pkt :=
  { p with hcrc := hcrcOf p, checks := (granules p.len.toNat p.data).map crc32c }

/-- A packet made on this device, in buffer class 0, with its checks. -/
def State.mkPkt (s : State) (type : BitVec 4) (dest : BitVec 15) (txid : BitVec 32) (addr : Nat) (args : Nat)
    (data : List Byte) (pmask : BitVec 8 := 0) : Pkt :=
  sealPkt
    { type := type, len := BitVec.ofNat 4 (ceilDiv data.length 64), hops := 0, sr := false, pmask := pmask,
      dest := dest, src := s.fabric.devId, txid := txid, addr := BitVec.ofNat 64 addr, args := BitVec.ofNat 64 args,
      hcrc := 0, checks := [], data := data, slotPoison := 0, cls := false, cut := none }

/-- Hand a packet to the egress stage (R360). Its age stamp is taken here, at a fabric ingress afresh, unless it brings one (R306,
R362). -/
def State.sendPkt (s : State) (p : Pkt) (ingress : Option Nat := none) (stamp : Option (BitVec 16) := none) : State :=
  let o : OutPkt := { pkt := p, ingress := ingress, since := s.time, held := false, stamp := stamp.getD s.arb.ageNow }
  { s with fabric := { s.fabric with outq := s.fabric.outq ++ [o] } }

/-! ### Routing entries (R357, R359) -/

/-- The routing-table entry of a device. -/
def State.routeEntry (s : State) (d : Nat) : BitVec 128 := SMap.get 0 s.fabric.routes d
/-- PRIMARY and LEGACY of an entry. -/
def entryPrimary (e : BitVec 128) : Nat := bits e.toNat 64 6
def entryLegacy (e : BitVec 128) : Bool := e.getLsbD 72
/-- An entry holds a route (R359). -/
def entryOk (e : BitVec 128) : Bool := e.getLsbD 71 && e.getLsbD (entryPrimary e)
/-- The device's own id; a device without one treats no id as its own. -/
def State.isOwn (s : State) (d : BitVec 15) : Bool := decide (s.fabric.devId = d)

/-- One more response or POSTACK discarded as late or unmatched (R365). -/
def State.lateResponse (s : State) : State := { s with fabric := { s.fabric with late := satInc s.fabric.late } }

/-- ARGS of a SYNC packet (R374). -/
def syncArgs (kind flags group phase seq value : Nat) : Nat :=
  kind + flags * 8 + packAt 0 [(1, group), (3, phase), (4, value + 2 ^ 20 * seq)]

/-- Send a SYNC packet to a tree neighbour. -/
def State.sendSync (s : State) (dest : BitVec 15) (kind flags group phase seq value : Nat) : State :=
  s.sendPkt (s.mkPkt 1 dest 0 0 (syncArgs kind flags group phase seq value) [])

/-- The management bus is held by the host or by the debug port: the management processor waits (R311). -/
def State.busHeld (s : State) : Bool := s.arb.granted || s.dbg.tapHold

/-! ### Messages and packets (R288, R355) -/

/-- A global tile address with its context in bit 27 (R18, R288). -/
def tileAddr (dev : BitVec 15) (t : TileId) (c : Bool) : Nat := t.toNat + dev.toNat * 4096 + b2n c * 2 ^ 27

/-- What identifies a message. -/
def msgKey (m : PostMsg) : MsgKey := { srcDev := m.srcDev, src := m.src, srcCtx := m.srcCtx, seq := m.seq }

/-- Bytes 0–3 of a message's header. -/
def msgDestWord (m : PostMsg) : BitVec 32 :=
  BitVec.ofNat 32 (tileAddr m.destDev m.dest m.destCtx + m.len.toNat * 2 ^ 28)

/-- The 16-byte header as it lands, with POISON as given (R288). -/
def msgHeader (m : PostMsg) (poison : Bool) : List Byte :=
  leBytes 4 (msgDestWord m).toNat ++ leBytes 4 (tileAddr m.srcDev m.src m.srcCtx + b2n poison * 2 ^ 28) ++
    leBytes 2 m.tag.toNat ++ [0, 0] ++ leBytes 4 m.seq.toNat

/-- The payload, 32 × LEN bytes. -/
def msgBytes (m : PostMsg) : List Byte := sliceBytes m.payload 0 (32 * m.len.toNat)

/-- The data granules of a POST packet (R355). -/
def msgGranules (m : PostMsg) : List Byte :=
  let l := msgHeader m false ++ msgBytes m
  sliceBytes l 0 (64 * ceilDiv l.length 64)

/-- The NACK of a message (R298). -/
def msgNack (m : PostMsg) (reason : BitVec 3) : NackMsg :=
  { src := m.src, srcCtx := m.srcCtx, destWord := msgDestWord m, reason := reason, tag := m.tag, seq := m.seq }

/-- Put a refusal on its way to its sender's NACK ring. -/
def State.pushNack (s : State) (n : NackMsg) : State := { s with post := { s.post with nacks := s.post.nacks ++ [n] } }

/-- Answer a message: on this device only a refusal travels, to another device an acceptance or a refusal (R295). -/
def State.answerPost (s : State) (m : PostMsg) (txid : BitVec 32) (reason : Option (BitVec 3)) : State :=
  if s.isOwn m.srcDev then
    match reason with
    | some r => s.pushNack (msgNack m r)
    | none => s
  else s.sendPkt (s.mkPkt 3 m.srcDev txid 0 ((reason.map fun r => r.toNat).getD 0) [])

/-- The message that a POST packet's granules carry (R288, R355). -/
def postOfPkt (p : Pkt) : PostMsg :=
  let w := fieldAt p.data 0 4
  let v := fieldAt p.data 4 4
  let len := bits w 28 4
  { destDev := BitVec.ofNat 15 (bits w 12 15), dest := BitVec.ofNat 12 w, destCtx := w.testBit 27, len := BitVec.ofNat 4 len,
    srcDev := BitVec.ofNat 15 (bits v 12 15), src := BitVec.ofNat 12 v, srcCtx := v.testBit 27,
    tag := BitVec.ofNat 16 (fieldAt p.data 8 2), seq := BitVec.ofNat 32 (fieldAt p.data 12 4),
    payload := sliceBytes p.data 16 (32 * len), poisoned := p.slotPoison ||| p.pmask ≠ 0,
    cut := p.cut.map fun g => min (32 * len) (64 * g - 16) }

end Sys2Proof.Machine
end

