-- ==== Sys2Proof/Machine/PowerOps.lean ====
section
/-! DEFINITION. The governor's model, phase records, targets and learning (R393–R402). Real quantities of the manual are
kept exactly, as integers over one fixed denominator. -/

namespace Sys2Proof.Machine

def State.kmax (s : State) : Nat := min 42 (bits s.power.govCfg.toNat 10 6)
def State.guardW (s : State) : Nat := bits s.power.govCfg.toNat 16 8
def State.minPhase (s : State) : Nat := bits s.power.govCfg.toNat 0 7
/-- WSHIFT; 0 acts as 1 (PWR_GOV_CFG). -/
def State.wshift (s : State) : Nat := max 1 (bits s.power.govCfg.toNat 7 3)
def State.govFixed (s : State) : Bool := s.power.govCfg.getLsbD 31
/-- A model constant of R393: 0 BASE, 1 C, 2 L, 3 STR, 4 FAB. -/
def State.modelConst (s : State) (j : Nat) : Nat := (SMap.get 0 s.power.model j).toNat

/-- The base draw in W: BASE as it was measured, with the idle draw of every domain that has been switched on since, or is to be,
and without that of the domains switched off since (R391, R393; assumption 72). -/
def State.baseWatts (s : State) : Int :=
  (List.range 207).foldl (fun a d =>
    let on := s.domainOn d || s.power.domPending.contains d
    if s.power.baseOff.contains d then (if on then a + Config.idleDraw d else a)
    else (if on then a else a - Config.idleDraw d)) (s.modelConst 0 : Int)
/-- VF_mV of a die and code (R396); the fuses' values are the model's choice (assumption 3). -/
def State.vf (s : State) (die k : Nat) : Nat := (SMap.get 850 s.fuses.vf (64 * die + k)).toNat

def State.phaseRec (s : State) (r : Nat) : PhaseRec := SMap.get PhaseRec.reset s.power.recs r
def State.modPhaseRec (s : State) (r : Nat) (f : PhaseRec → PhaseRec) : State :=
  { s with power := { s.power with recs := SMap.put PhaseRec.reset s.power.recs r (f (s.phaseRec r)) } }
def State.zonePower (s : State) (z : Nat) : ZonePower := SMap.get ZonePower.reset s.power.zones z
def State.modZonePower (s : State) (z : Nat) (f : ZonePower → ZonePower) : State :=
  { s with power := { s.power with zones := SMap.put ZonePower.reset s.power.zones z (f (s.zonePower z)) } }

/-- The shares u, s, x of an intensity class, in hundredths (R396). -/
def classShares (c : Nat) : Nat × Nat × Nat :=
  match c with
  | 1 => (5, 5, 5)
  | 2 => (25, 100, 25)
  | 3 => (25, 50, 100)
  | 4 => (60, 60, 60)
  | 5 => (100, 25, 10)
  | _ => (100, 100, 100)

/-- Member contexts of a zone on one die. -/
def State.membersOnDie (s : State) (z : BitVec 3) (die : Nat) : Nat :=
  ((s.members z).filter fun m => dieOf m.1 = die).length

/-- Pc(k) of a region of a die in units of 1 / (4 · 10^9) W (R393). -/
def State.pcNum (s : State) (die k : Nat) : Nat :=
  let v := s.vf die s.kmax
  s.modelConst 1 * v * v * (32 + k) + s.modelConst 2 * v * 40000

/-- One watt in the unit of `predNum` (R393). -/
def State.wattUnit (s : State) : Nat := 4096 * 100 * 144 * 4000000000 * 16 * s.activeTiles

/-- The compute term of P_r(k, q), in units of 1 / `wattUnit` W. -/
def State.compNum (s : State) (r k : Nat) : Nat :=
  let rc := s.phaseRec r
  let z := BitVec.ofNat 3 (r / 256)
  let m (d : Nat) := s.membersOnDie z d * s.pcNum d k
  rc.d.toNat * (classShares rc.cls.toNat).1 * (m 0 + m 1) * 16 * s.activeTiles

/-- P_r(k, q) in units of 1 / `wattUnit` W (R393). -/
def State.predNum (s : State) (r k q : Nat) : Nat :=
  let rc := s.phaseRec r
  let z := BitVec.ofNat 3 (r / 256)
  let sh := classShares rc.cls.toNat
  s.compNum r k + rc.d.toNat * (sh.2.1 * s.modelConst 3 + sh.2.2 * s.modelConst 4) * q * (s.members z).length * 144 *
    4000000000

/-- The zone has a started member. -/
def State.zoneStarted (s : State) (z : BitVec 3) : Bool :=
  (s.zone z).started && (s.members z).any fun m =>
    decide ((s.ctx m.1 m.2).phase = .active) || decide ((s.ctx m.1 m.2).phase = .loaded)

/-- The eight zones. -/
def allZones : List (BitVec 3) := [0, 1, 2, 3, 4, 5, 6, 7]

/-- The weight of a zone (R397). -/
def State.weightOf (s : State) (z : BitVec 3) : Nat :=
  let w := (SMap.get 0 s.power.weights z.toNat).toNat
  if w = 0 then (s.members z).length else w

/-- The zone whose weight a zone's share uses: a guest counts with its host (R397). -/
def State.shareZone (s : State) (z : BitVec 3) : BitVec 3 :=
  if (s.zone z).role = 2 then ((s.zone z).pair).getD z else z

/-- The sum of the weights of zones with a started member; a host and its guest are one, and either's member counts (R397). -/
def State.weightSum (s : State) : Nat :=
  (allZones.map fun h => if allZones.any (fun z => s.zoneStarted z && decide (s.shareZone z = h)) then s.weightOf h else 0).sum

/-- The power the zones share: PWR_CAP − BASE − GUARD in W. -/
def State.freeWatts (s : State) : Int := (s.power.cap.toNat : Int) - s.baseWatts - s.guardW

/-- A zone's share in units of 2^−32 W (R397). -/
def State.shareOf (s : State) (z : BitVec 3) : Int :=
  let h := s.shareZone z
  if s.weightSum = 0 then 0 else (s.freeWatts * (s.weightOf h : Int) * 4294967296) / (s.weightSum : Int)

/-- The choice of R398, with `fuel` steps left. -/
def State.chooseEntry (s : State) (r : Nat) (share : Int) : Nat → Nat → Nat → Nat × Nat × Bool
  | 0, k, q => (k, q, true)
  | fuel + 1, k, q =>
    if (s.predNum r k q : Int) * 4294967296 ≤ share * (s.wattUnit : Int) then (k, q, false)
    else
      let comp := s.compNum r k
      if k > 0 ∧ (q = 1 ∨ comp ≥ s.predNum r k q - comp) then s.chooseEntry r share fuel (k - 1) q
      else if q > 1 then s.chooseEntry r share fuel k (q - 1)
      else (k, q, true)

/-- Recompute a record's phase-table entry (R398). -/
def State.recomputeEntry (s : State) (r : Nat) : State :=
  let z := BitVec.ofNat 3 (r / 256)
  let e := s.chooseEntry r (s.zonePower z.toNat).share 64 s.kmax 16
  s.modPhaseRec r fun p => { p with k := BitVec.ofNat 6 e.1, q := BitVec.ofNat 5 e.2.1, floor := e.2.2 }

/-- The predicted power of every active record, in units of 1 / `wattUnit` W (R402). -/
def State.predNow (s : State) : Nat :=
  (allZones.map fun z => match (s.zonePower z.toNat).phaseRec with
    | some r => let e := s.zonePower z.toNat; s.predNum r e.k.toNat e.q.toNat
    | none => 0).sum

/-- `num / den` rounded to the nearest integer, halves upward (assumption 31). -/
def roundDiv (num : Int) (den : Nat) : Int := (2 * num + (den : Int)) / (2 * (den : Int))

/-- The weight of a new sample in a record is one over this (R402). -/
def State.learnWeight (s : State) (r : Nat) : Nat := if (s.phaseRec r).n = 0 then 1 else 2 ^ s.wshift

/-- A record's d moves by ρ = num / dP; with nothing predicted ρ has no value, and d is a free value (R402, assumption 31). -/
def State.learnD (s : State) (r : Nat) (num : Int) (dP : Nat) : State :=
  let d := (s.phaseRec r).d.toNat
  let w := s.learnWeight r
  let d' : Int := if dP = 0 then (s.freeBits 16).toNat
                  else roundDiv ((d : Int) * (dP : Int) * ((w : Int) - 1) + (d : Int) * num) (dP * w)
  let s := if dP = 0 then s.tookFree else s
  s.modPhaseRec r fun p => { p with d := BitVec.ofNat 16 (min 16384 (max 256 d')).toNat }

/-- The end of the phase under way in a zone (R402): its record takes the sample, and every record of another zone whose phase
overlaps the window takes the same ρ (assumption 72). -/
def State.phaseLearn (s : State) (z : BitVec 3) : State :=
  let e := s.zonePower z.toNat
  match e.phaseRec with
  | none => s
  | some r =>
    let trc := s.time.toNat - e.t0.toNat
    if s.govFixed ∨ trc < 2000 then s
    else
      let dP : Nat := s.power.predInt - e.p0
      let dE : Int := ((s.power.energy.toNat - e.e0.toNat) * 100 : Nat)
      let num := (dE - s.baseWatts * (trc : Int)) * (s.wattUnit : Int)
      let w := s.learnWeight r
      let s := (s.learnD r num dP).each (e.overlaps.filter fun o => o ≠ r) fun s o => s.learnD o num dP
      s.modPhaseRec r fun p =>
        let dur : Int := roundDiv ((p.dur.toNat * 100 * (w - 1) + trc : Nat) : Int) (100 * w)
        { p with dur := BitVec.ofNat 24 (min 0xFFFFFF dur.toNat), n := satInc p.n }

/-- A phase of record r begins in a zone: it overlaps the phases under way in the others (R402). -/
def State.phaseBegins (s : State) (z : BitVec 3) (r : Nat) : State :=
  let others := (allZones.filter fun o => decide (o ≠ z) && (s.zonePower o.toNat).phaseRec.isSome)
  let s := s.each others fun s o =>
    s.modZonePower o.toNat fun e => { e with overlaps := if e.overlaps.contains r then e.overlaps else e.overlaps ++ [r] }
  s.modZonePower z.toNat fun e =>
    { e with phaseRec := some r, e0 := s.power.energy, t0 := s.time, p0 := s.power.predInt
             overlaps := others.filterMap fun o => (s.zonePower o.toNat).phaseRec }

/-- The highest code that the last confirmed voltages of a zone's dies support (R452). -/
def State.codeLimit (s : State) (z : BitVec 3) : Nat :=
  let die (d : Nat) : Nat :=
    let v := (SMap.get DieTherm.reset s.power.therm d).vconfirmed.toNat
    if s.membersOnDie z d = 0 then 42 else ((List.range 43).filter fun k => s.vf d k ≤ v).foldl max 0
  min (die 0) (die 1)

/-! ### The core voltages (R401) -/

/-- The highest code in use on a die (R401): of the phase-table entries of started zones with members there, and of the entries
of those zones in force, which a new voltage must still carry; in FIXED mode also of the codes of the die's regions
(assumption 41). -/
def State.topCode (s : State) (die : Nat) : Nat :=
  let zs := allZones.filter fun z => s.zoneStarted z && decide (s.membersOnDie z die ≠ 0)
  let codes := zs.flatMap fun z =>
    let own := (s.power.recs.filter fun r => r.1 / 256 = z.toNat).map fun r => r.2.k.toNat
    (s.zonePower z.toNat).k.toNat :: (if own.length < 256 then PhaseRec.reset.k.toNat :: own else own)
  let fixed := if s.govFixed then (List.range 8).map fun i => min 42 (SMap.get 8 s.power.govFix (8 * die + i)).toNat else []
  (codes ++ fixed).foldl max 0

/-- The cap code that a die's voltage follows: the thermal cap code as it stands, but for a lowering less than 1 ms old
(R401). -/
def DieTherm.voltCap (t : DieTherm) : Nat := t.lowered.foldl (fun a l => max a l.2.toNat) t.cap.toNat

/-- The governor's setpoints (R401): the voltage of the highest code in use, no higher than the thermal cap asks. -/
def State.setVoltages (s : State) : State :=
  s.each [0, 1] fun s d =>
    let k := min (s.topCode d) (s.dieTherm d).voltCap
    s.modDie d fun t => { t with vcore := BitVec.ofNat 10 (max (s.vf d 0) (s.vf d k)) }

/-- A lowering of a thermal cap code is 1 ms old on some die. -/
def State.loweredDue (s : State) : Bool :=
  [0, 1].any fun d => (s.dieTherm d).lowered.any fun l => decide (l.1.toNat ≤ s.time.toNat)

/-- The voltages follow the lowerings that are 1 ms old (R401). -/
def State.voltagesFollow (s : State) : State :=
  if s.loweredDue then
    (s.each [0, 1] fun s d => s.modDie d fun t =>
      { t with lowered := t.lowered.filter fun l => ¬ l.1.toNat ≤ s.time.toNat }).setVoltages
  else s

/-- PHASE_PUBLISH: at a release the zone's entry for the barrier's phase becomes current (R399). -/
def State.phasePublish (s : State) (z : BitVec 3) (phase : BitVec 8) : State :=
  let s := s.phaseLearn z
  if s.govFixed then s.modZonePower z.toNat fun e => { e with phaseRec := none }
  else
    let r := 256 * z.toNat + phase.toNat
    let p := s.phaseRec r
    let pk : BitVec 6 := BitVec.ofNat 6 (min p.k.toNat (s.codeLimit z))
    let short := decide (p.n ≠ 0 ∨ p.dur ≠ 0) && decide (p.dur.toNat < s.minPhase)
    let s := s.modZonePower z.toNat fun e =>
      { e with k := if short ∧ e.k.toNat < pk.toNat then e.k else pk,
               q := if short ∧ e.q.toNat < p.q.toNat then e.q else p.q }
    (s.phaseBegins z r).setVoltages

/-- The zones with an ACTIVE context in a region. -/
def State.activeZones (s : State) (g : Nat) : List (BitVec 3) :=
  allZones.filter fun z => (s.members z).any fun m =>
    decide (regionOf m.1 = g) && decide ((s.ctx m.1 m.2).phase = .active)

/-- A region's target clock code (R399, and FIXED mode). -/
def State.targetOf (s : State) (g : Nat) : Nat :=
  let cap := (s.dieTherm (g / 8)).cap.toNat
  if s.govFixed then min (min 42 (SMap.get 8 s.power.govFix g).toNat) cap
  else match s.activeZones g with
    | [] => 0
    | zs => zs.foldl (fun a z => min a (s.zonePower z.toNat).k.toNat) (min cap s.kmax)

/-- A region's stream and fabric issue rate (R399, R406); FIXED mode changes the code targets only. -/
def State.rateOf (s : State) (g : Nat) : Nat :=
  let q := (s.activeZones g).foldl (fun a z => min a (s.zonePower z.toNat).q.toNat) 16
  if s.power.hbmThr then min 8 q else q

/-- A write of PWR_GOV_CFG. FIXED mode ends the phases under way unlearned: it learns nothing. -/
def State.govWrite (s : State) (v : Word32) : State :=
  let s := { s with power := { s.power with govCfg := v &&& 0x80FFFFFF } }
  if s.govFixed then s.each allZones fun s z => s.modZonePower z.toNat fun e => { e with phaseRec := none } else s

/-- Set every region's target and rate, once the governor has taken control (R399, R400). -/
def State.retarget (s : State) : State :=
  if s.power.ready then
    s.each (List.range 16) fun s g =>
      let s := s.modRegion g fun r => { r with clkTarget := BitVec.ofNat 6 (s.targetOf g) }
      { s with power := { s.power with regionQ := SMap.put 16 s.power.regionQ g (BitVec.ofNat 5 (s.rateOf g)) } }
  else s

end Sys2Proof.Machine
end

