-- ==== Sys2Proof/Machine/Zones.lean ====
section
/-! DEFINITION. Signal counters, the stop of a context (R74), changes of active context (R65, R68, R499), the abort of a zone
(R265) and of a group (R378), bubbles and pairings (R254–R258), and the release of a barrier (R246, R249, R375, R376). -/

namespace Sys2Proof.Machine

/-! ### Signal counters (R57, R58) -/

/-- One increment of a counter; at 15 it is lost and sets the sticky flag (R58). -/
def Ctx.signal (y : Ctx) (k : BitVec 4) : Ctx :=
  if y.sigOf k = 15 then { y with ovf := y.ovf ||| (1#16 <<< k.toNat) }
  else { y with sig := SMap.put 0 y.sig k.toNat (y.sigOf k + 1) }

/-- The signal of an instruction that finishes, if it names a counter (R57). -/
def Ctx.signalOpt (y : Ctx) : Option (BitVec 4) → Ctx
  | none => y
  | some k => y.signal k

/-- Take one count (R57); the caller has seen that the counter is not zero. -/
def Ctx.take (y : Ctx) (k : BitVec 4) : Ctx := { y with sig := SMap.put 0 y.sig k.toNat (y.sigOf k - 1) }

/-- Take the count a wait names. -/
def Ctx.takeOpt (y : Ctx) : Option (BitVec 4) → Ctx
  | none => y
  | some k => y.take k

/-! ### Stopping a context (R74) -/

/-- An engine without the work of one context. -/
def EngQ.drop (e : EngQ) (c : Bool) : EngQ :=
  { queue := e.queue.filter fun o => o.ctx ≠ c
    running := e.running.filter fun o => o.ctx ≠ c
    aborting := e.aborting.filter fun o => o.ctx ≠ c }

/-- An engine that is to abandon one context's running instructions at their next internal step, its queued ones discarded (R74). -/
def EngQ.abort (e : EngQ) (c : Bool) : EngQ :=
  { e.drop c with aborting := e.aborting ++ e.running.filter fun o => o.ctx = c }

/-- Discard one context's queued and running work of the per-tile engines, as a reset does (the exchange engine: assumption 10). -/
def Tile.dropEngines (x : Tile) (c : Bool) : Tile :=
  { x with burin := x.burin.drop c, stylus := x.stylus.drop c, stipple := x.stipple.drop c, xeng := x.xeng.drop c,
           xch := match x.xch with
             | some r => if r.ctx = c then none else some r
             | none => none }

/-- What a terminating fault does to the per-tile engines: queued instructions are discarded, running ones abandoned (R74). -/
def Tile.abortEngines (x : Tile) (c : Bool) : Tile :=
  { x.dropEngines c with burin := x.burin.abort c, stylus := x.stylus.abort c, stipple := x.stipple.abort c }

/-- A STEP under way in a context ends at once and its command replies STATE, naming the tile (R476). -/
def State.stepEnds (s : State) (t : TileId) (c : Bool) : State :=
  match s.host.waits.find? (fun w => w.kind = .step t c) with
  | some w => (s.unwait w).fail w.hdr w.opcode stState t.toNat
  | none => s

/-- The effects of R74 on a context, without its record. -/
def State.stopCtx (s : State) (t : TileId) (c : Bool) : State :=
  let s := s.modTile t fun x => x.abortEngines c
  let s := s.modCtx t c fun y =>
    { y with phase := .faulted, gate := .none, postQ := [], streamHold := true, saving := false, steps := 0,
             xfault := none, xue := none, stopPend := none, haltPend := false }
  s.stepEnds t c

/-- Whether a context lies between a release and its end decision (R246). -/
def State.inExchange (s : State) (t : TileId) (c : Bool) : Bool :=
  let y := s.ctx t c
  decide (y.gate = .barrier) && decide ((s.zone y.zone).bar = .exchanging) && decide (y.phase = .active)

/-! ### Changes of active context (R65, R68, R499) -/

/-- Clear the per-tile stores that read as zero after a change of active context (R65). An instruction that a fault made its engine
abandon has come to its end before. -/
def Tile.clearStores (x : Tile) : Tile :=
  let still (e : EngQ) : EngQ := { e with aborting := [] }
  { x with vregs := [], opbuf := OpBuf.reset, acc := [], staging := [], burin := still x.burin, stylus := still x.stylus,
           stipple := still x.stipple }

/-- Make a context active: the change of R68, which ends with the line of its program counter in the instruction buffer. A halted
context takes its halt now, unless a STEP lets it go on (R474, R476). -/
def State.activate (s : State) (t : TileId) (c : Bool) : State :=
  let s := s.countCe t ((s.tile t).incomingSingles c)
  let s := s.modTile t fun x =>
    let x := x.clearStores
    let o := x.ctx (!c)
    let x := if o.phase = .active then x.setCtx (!c) { o with phase := .loaded } else x
    (x.setCtx c { x.ctx c with phase := .active, begun := true }).incomingLine c
  if (s.ctx t c).halted && decide ((s.ctx t c).steps = 0) then s.haltCtx t c 1 0 0 else s

/-- A context that a start release makes active when its tile is vacant: LOADED, of a started STANDALONE or HOST zone
with no bubble in progress, and not being evicted (R499). -/
def State.awaitsStart (s : State) (t : TileId) (c : Bool) : Bool :=
  let y := s.ctx t c
  let z := s.zone y.zone
  decide (y.phase = .loaded) && z.started && y.started && !z.aborted && decide (z.role ≠ 2) && z.bubble.isNone && !y.saving &&
    !y.resetPend

/-- The start release of a vacant tile (R499). -/
def State.startRelease (s : State) (t : TileId) : State :=
  if (s.tile t).active.isSome then s
  else if s.awaitsStart t false then s.activate t false
  else if s.awaitsStart t true then s.activate t true
  else s

/-- A tile is vacant for a bubble: a host's context that a CONTINUE_IDLE decision made give it up waits there (R248, R254). -/
def State.idleInBubble (s : State) (t : TileId) : Bool :=
  [false, true].any fun c =>
    let y := s.ctx t c
    decide (y.phase = .loaded) && (s.zone y.zone).bubble.isSome && decide (y.lastEnd = 5) && !y.saving

/-- The start releases of every vacant tile: a tile that its active context left by task end, fault or reset passes to a context that
waits there, one vacated for a bubble does not (R254, R499). -/
def State.startReleases (s : State) : State :=
  s.each (s.tiles.map fun p => BitVec.ofNat 12 p.1) fun s t => if s.idleInBubble t then s else s.startRelease t

/-! ### External sync groups (R373–R379) -/

def XGroup.enabled (x : XGroup) : Bool := x.cfg.getLsbD 31
def XGroup.isRoot (x : XGroup) : Bool := x.cfg.getLsbD 30
def XGroup.gid (x : XGroup) : Nat := bits x.cfg.toNat 0 16
def XGroup.parent (x : XGroup) : Option (BitVec 15) :=
  if x.tree.getLsbD 31 then some (BitVec.ofNat 15 (bits x.tree.toNat 16 15)) else none
/-- The children of this device, in index order. -/
def XGroup.children (x : XGroup) : List (BitVec 15) := (x.edges.filter fun e => e.2.valid).map fun e => e.2.child
def XGroup.neighbours (x : XGroup) : List (BitVec 15) := x.parent.toList ++ x.children
/-- The sequence number of the next barrier. -/
def XGroup.nextSeq (x : XGroup) : BitVec 12 := x.seq + 1

/-- DETAIL of XSYNC_ABORT and XSYNC_SWEEP_STOPPED (R462). -/
def xsyncDetail (z : BitVec 3) (x : XGroup) (cause : Nat) : Nat :=
  detail [(32, z.toNat), (34, x.gid), (36, cause), (40, x.breakDev.toNat), (42, x.breakPeer.toNat)]

/-- FAB_XSYNC_CAL_z (R383). -/
def XGroup.calWord (x : XGroup) : Nat := x.calState.toNat * 2 ^ 30 + x.breakIndex.toNat * 32768 + x.measured.toNat

/-- GROUP_SWEEP replies when the sweep ends. -/
def State.sweepReplies (s : State) (z : BitVec 3) : State :=
  s.each (s.host.waits.filter fun w => w.kind = .sweep z) fun s w =>
    (s.unwait w).ok w.hdr w.opcode (s.xgroup z).calWord

/-- A group aborts on this device: ABORT goes to every tree neighbour but the one it came from, the state becomes
ABORTED, and a sweep under way stops (R378, R383). -/
def State.groupAbort (s : State) (z : BitVec 3) (cause : Nat) (from? : Option (BitVec 15)) : State :=
  let x := s.xgroup z
  if x.enabled && x.state ≠ 3 then
    let s := s.each (x.neighbours.filter fun d => some d ≠ from?) fun s d =>
      s.sendSync d 2 0 x.gid 0 x.nextSeq.toNat cause
    let sweeping := decide (x.calState = 1)
    let s := s.modXgroup z fun x =>
      { x with state := 3, cause := BitVec.ofNat 4 cause, wait := none, walk := none,
               calState := if sweeping then 3 else x.calState, breakReason := if sweeping then 2 else x.breakReason }
    let s := if sweeping then s.sweepReplies z else s
    s.record 0x0507 0 3 z.toNat false 0 0 (xsyncDetail z x cause) (decide (cause = 3))
  else s

/-! ### Bubbles, pairings and aborts (R254–R258, R265) -/

/-- The guest's return: the reason is kept for T_BUBBLE (R258). -/
def State.returnGuest (s : State) (g : BitVec 3) (reason : BitVec 3) : State :=
  s.each (s.members g) fun s m => s.modCtx m.1 m.2 fun y => { y with lastReturn := reason }

/-- The pairing of host zone h ends: both zones are STANDALONE, and an UNPAIR that waits replies (R258, R424). -/
def State.endPair (s : State) (h : BitVec 3) (f : Zone → Zone) : State :=
  match (s.zone h).pair with
  | some g =>
    let s := s.modZone h fun z => { z with role := 0, pair := none, bubble := none, unpair := false }
    let s := s.modZone g fun z => f { z with role := 0, pair := none, budget := 0 }
    s.each (s.host.waits.filter fun w => w.kind = .unpair h) fun s w => (s.unwait w).ok w.hdr w.opcode
  | none => s

/-- The bubble of host zone h ends: h resumes on every member tile that has no other context ACTIVE; a tile whose guest context is in
an exchange passes to it at that exchange's end decision (R256), and a pending UNPAIR takes effect (R424). -/
def State.bubbleEnd (s : State) (h : BitVec 3) : State :=
  if (s.zone h).bubble.isSome then
    let s := s.modZone h fun z => { z with bubble := none }
    let s := s.each (s.members h) fun s m =>
      if (s.ctx m.1 m.2).phase = .loaded ∧ (s.ctx m.1 (!m.2)).phase ≠ .active then s.activate m.1 m.2 else s
    if (s.zone h).unpair then s.endPair h id else s
  else s

/-- Every member context is in one of the states a test accepts, and there is a member. -/
def State.allMembers (s : State) (z : BitVec 3) (p : CtxPhase → Bool) : Bool :=
  decide (s.members z ≠ []) && (s.members z).all fun m => p (s.ctx m.1 m.2).phase

def CtxPhase.ended : CtxPhase → Bool
  | .done | .faulted | .evicted | .empty => true
  | _ => false

/-- A guest zone whose members have all ended, or that has aborted, ends its host's bubble at once (R256). -/
def State.guestEnded (s : State) (z : BitVec 3) : State :=
  match decide ((s.zone z).role = 2), (s.zone z).pair with
  | true, some h =>
    if (s.zone h).bubble.isSome && (s.allMembers z CtxPhase.ended || (s.zone z).aborted) then (s.returnGuest z 4).bubbleEnd h
    else s
  | _, _ => s

/-- The host zone h aborts: the pairing ends, and its guest becomes STANDALONE and not started (R258). -/
def State.hostAborted (s : State) (h : BitVec 3) : State :=
  match decide ((s.zone h).role = 1), (s.zone h).pair with
  | true, some _ =>
    s.endPair h fun z => { z with started := false }
  | _, _ => s

/-- When every member of a host has entered DONE, the pairing ends and the guest is started (R258). -/
def State.hostDone (s : State) (h : BitVec 3) : State :=
  match decide ((s.zone h).role = 1), (s.zone h).pair with
  | true, some _ =>
    if s.allMembers h (fun p => p = .done) then
      let g := ((s.zone h).pair).getD 0
      let s := s.endPair h fun z => { z with started := true }
      s.each (s.members g) fun s m => s.modCtx m.1 m.2 fun y => { y with started := true }
    else s
  | _, _ => s

/-- Lane grants are held until every member has ended (R271). -/
def State.laneSettle (s : State) (z : BitVec 3) : State :=
  if (s.members z).all (fun m => (s.ctx m.1 m.2).phase.ended) then s.modZone z fun x => { x with lanes := [] }
  else s

/-- The commands whose latched requests an abort drops reply ABORTED (R265, R427). -/
def State.dropRequests (s : State) (z : BitVec 3) : State :=
  let drop (s : State) (r : ZoneReq) : State :=
    let op : BitVec 16 := match r.kind with
      | .stop => 0x0204
      | .yield => 0x0205
      | .evict _ => 0x0206
    if r.deadline.isSome then s.fail ⟨r.queue, r.seq, false, false, 0⟩ op stAborted else s
  let zn := s.zone z
  let s := s.each (zn.reqs ++ zn.evictWait.toList) drop
  s.modZone z fun x => { x with reqs := [], evictWait := none }

/-- The superstep count of a zone: its first member's (R242). -/
def State.zoneStep (s : State) (z : BitVec 3) : Nat :=
  match s.members z with
  | m :: _ => (s.ctx m.1 m.2).supersteps.toNat
  | [] => 0

/-- The abort of a zone (R265): no further barrier is released, latched requests are dropped, every other member that is
ACTIVE or LOADED is stopped, those in an exchange at its end decision, and one ZONE_ABORT record names the record of the
cause. -/
def State.zoneAbort (s : State) (z : BitVec 3) (origin : Nat) : State :=
  if (s.zone z).aborted then s
  else
    let live := (s.members z).filter fun m => ¬ (s.ctx m.1 m.2).phase.ended
    let now := live.filter fun m => ¬ s.inExchange m.1 m.2
    let step := s.zoneStep z
    let s := s.dropRequests z
    let s := s.modZone z fun x =>
      if x.bar = .exchanging then { x with aborted := true } else { x with aborted := true, arrived := [], bar := .collecting }
    let s := s.each now fun s m => (s.stopCtx m.1 m.2).openWindow 0 m.1.toNat m.1 m.2 true 1 none
    let s := s.record 0x010B 0 3 z.toNat false 0 1
      (detail [(32, z.toNat), (36, step), (40, origin), (48, live.length)]) true
    let s := s.groupAbort z 3 none
    ((s.hostAborted z).guestEnded z).laneSettle z

/-! ### The barrier (R244–R246, R249, R375, R376) -/

/-- Start the XRUN at the head of the exchange queue for one context (R230). -/
def Tile.xchStart (x : Tile) (c : Bool) : Tile :=
  match x.xeng.queue with
  | o :: rest =>
    if o.ctx = c then
      let ra := (o.regs.getD 0 0).toNat
      let rl := (o.regs.getD 1 0).toNat
      let r : XchRun :=
        { ctx := c, list := ra / 128 * 128, len := min 1048576 (bits rl 0 21), idx := 0, last := none,
          lastSend := none, lastRecv := none, buf := [], lines := 0, undo := [], finished := false }
      { x with xeng := { x.xeng with queue := rest, running := [o] }, xch := some r }
    else x
  | [] => x

/-- L of an arrival: the length of the XRUN at the head of the context's exchange queue (R245). -/
def Tile.xchLen (x : Tile) (c : Bool) : Nat :=
  match x.xeng.queue with
  | o :: _ => if o.ctx = c then min 1048576 (bits (o.regs.getD 1 0).toNat 0 21) else 0
  | [] => 0

/-- The fields of no arrival. -/
def syncZero : SyncFields := { phase := 0, bubble := false, yield := false, ext := false }

/-- Bits BUBBLE, YIELD, EXT (R462, R483). -/
def syncFlags (f : SyncFields) : Nat := b2n f.bubble + 2 * b2n f.yield + 4 * b2n f.ext

/-! ### The exchange engine's fetch (R233, R275) -/

/-- Change a tile's run. -/
def State.modRun (s : State) (t : TileId) (f : XchRun → XchRun) : State :=
  s.modTile t fun x => { x with xch := x.xch.map f }

/-- The scratchpad as it stood at exchange cycle `at'`, before the receives' writes of that cycle and later (R275). -/
def Tile.asOf (x : Tile) (r : XchRun) (at' : Nat) : Tile :=
  (r.undo.filter fun u => decide (at' ≤ u.1 + 1)).foldl (fun x u =>
    let a := x.phys r.ctx u.2.1
    { x with sp := memWrite x.sp a (leBytes 32 u.2.2.1.toNat)
             spErr := (numbered (a / 8) u.2.2.2).foldl (fun m e => SMap.put .ok m e.1 e.2) x.spErr }) x

/-- Relative address of the next line of the list to fetch. -/
def XchRun.nextLine (r : XchRun) : Nat := r.list + 128 * r.lines

/-- The engine fetches the next line of its list: sixteen words, each with the uncorrectable word found there; corrected words are
counted (R99, R100, R233). -/
def State.xFetch (s : State) (t : TileId) (r : XchRun) (at' : Nat) : State :=
  let x := (s.tile t).asOf r at'
  let a := x.phys r.ctx r.nextLine
  let ws := (List.range 16).map fun i => (leNat (x.read (a + 8 * i) 8), x.badWord (a + 8 * i) 8)
  (s.countCe t (x.singles a 128)).modRun t fun r => { r with buf := r.buf ++ ws.drop (r.idx - 16 * r.lines), lines := r.lines + 1 }

/-- The lines that the engine has fetched by exchange cycle `now`: one every 2 xc from the clock switch, while the 64-word buffer has
room and the list lies in the partition (R233). -/
def State.xFill (s : State) (t : TileId) (now : Nat) : Nat → State
  | 0 => s
  | fuel + 1 =>
    match (s.tile t).xch with
    | some r =>
      let at' := max (2 * r.lines) (r.last.getD 0)
      if !r.finished && decide (r.buf.length ≤ 48) && decide (at' ≤ now) && (s.tile t).inPart r.ctx r.nextLine 128 then
        (s.xFetch t r at').xFill t now fuel
      else s
    | none => s

/-- BARRIER_RELEASE: the members switch to the exchange clock and their word lists begin; the phase is published to
the governor (R246, R399). -/
def State.releaseBarrier (s : State) (z : BitVec 3) : State :=
  let zn := s.zone z
  let f := zn.first.getD syncZero
  let s := s.modZone z fun x => { x with bar := .exchanging, phaseNow := f.phase }
  let s := s.phasePublish z f.phase
  let s := s.each zn.arrived fun s t =>
    match (s.tile t).active with
    | some c =>
      let s := (s.modTile t fun x => x.xchStart c).xFill t 4 4
      s.trace t c 2 [(12, 1), (13, z.toNat), (14, f.phase.toNat), (15, syncFlags f), (16, zn.lz),
        (20, (s.ctx t c).supersteps.toNat)]
    | none => s
  s.retarget

/-- Whether a latched request may be applied at a barrier with these fields (R259). -/
def ZoneReq.allowed (r : ZoneReq) (f : SyncFields) (guest : Bool) : Bool := r.any || f.bubble || f.yield || guest

/-- Whether a request of a zone may be applied at a barrier with these fields: of a grouped zone at its EXT barriers only (R259,
R379). -/
def State.applies (s : State) (z : BitVec 3) (f : SyncFields) (r : ZoneReq) : Bool :=
  (f.ext || !(s.xgroup z).enabled) && r.allowed f (decide ((s.zone z).role = 2))

/-- The budget of a guest's bubble has run out (R255). -/
def State.budgetOut (s : State) (z : BitVec 3) : Bool :=
  match (s.zone z).pair with
  | some h =>
    match (s.zone h).bubble with
    | some t0 => decide ((s.zone z).budget ≠ 0) && decide ((s.time - t0).toNat ≥ (s.zone z).budget.toNat * 100)
    | none => false
  | none => false

/-- The flags of the root's RELEASE: NEWCAL, RETURN, STOP, EVICT; a yield request travels as RETURN (R374, R379, R384). -/
def State.releaseFlags (s : State) (z : BitVec 3) (f : SyncFields) : Nat :=
  let zn := s.zone z
  let guest := decide (zn.role = 2)
  let has (p : ReqKind → Bool) : Bool := zn.reqs.any fun r => s.applies z f r && p r.kind
  b2n (s.xgroup z).pendDmax.isSome +
  2 * b2n (has (fun k => k = .yield) || (guest && (f.yield || s.budgetOut z))) +
  4 * b2n (has (fun k => k = .stop)) +
  8 * b2n (has (fun k => match k with | .evict _ => true | _ => false))

/-- Adopt the pending calibration (R384). The pending values are used up: a device that the next sweep does not reach is
unmeasured (R383). -/
def XGroup.adopt (x : XGroup) : XGroup :=
  { x with dmax := x.pendDmax.getD x.dmax, pendDmax := none, pathMeas := x.pendPathMeas, path := x.pendPath,
           pendPathMeas := false, pendPath := 0,
           edges := x.edges.map fun e =>
             (e.1, { e.2 with meas := e.2.pendMeas, lat := e.2.pendLat, pendMeas := false, pendLat := 0 }) }

/-- Send or forward RELEASE to every child, with the budget less the edge's latency (R376). -/
def State.sendReleases (s : State) (x : XGroup) (seq : BitVec 12) (flags phase budget : Nat) : State :=
  s.each (x.edges.filter fun e => e.2.valid) fun s e =>
    s.sendSync e.2.child 1 flags x.gid phase seq.toNat (budget - (if e.2.meas then e.2.lat.toNat else 0))

/-- Steps of 0.625 ns in a budget of ns, rounded up (R376). -/
def waitSteps (ns : Nat) : Nat := ceilDiv (8 * ns) 5

/-- The arrival of this device's group barrier goes on when the local zone and every child have arrived (R375, R376). -/
def State.groupAdvance (s : State) (z : BitVec 3) : State :=
  let x := s.xgroup z
  let f := ((s.zone z).first).getD syncZero
  if x.enabled && x.state ≠ 3 && !x.arriveSent && x.localIn && x.children.all (fun d => x.kids.any fun k => k.1 = d) then
    if x.isRoot then
      let flags := s.releaseFlags z f
      let x := if flags % 2 = 1 then x.adopt else x
      let x := { x with state := 2, seq := x.nextSeq, phase := f.phase, arriveSent := true, kids := [],
                        relFlags := BitVec.ofNat 4 flags, relPhase := f.phase, wait := some (waitSteps x.dmax.toNat) }
      let s := s.modXgroup z fun _ => x
      s.sendReleases x x.seq flags f.phase.toNat x.dmax.toNat
    else
      let s := s.modXgroup z fun x => { x with state := 1, arriveSent := true, phase := f.phase }
      match x.parent with
      | some p => s.sendSync p 0 0 x.gid f.phase.toNat x.nextSeq.toNat 0
      | none => s
  else s

/-- A group finds a mismatch of a child's ARRIVE: the record of R263 names the group and the child (R375); the group and
its zone abort. -/
def State.groupMismatch (s : State) (z : BitVec 3) (child : BitVec 15) (phase : Nat) : State :=
  let x := s.xgroup z
  let f := ((s.zone z).first).getD syncZero
  let s := s.record 0x0107 0 3 x.gid false 0 1
    (detail [(32, z.toNat), (36, s.zoneStep z), (40, phase), (41, 4), (42, f.phase.toNat), (43, syncFlags f), (48, 0x8000 + child.toNat)])
  (s.groupAbort z 1 none).zoneAbort z (s.log.next.toNat - 1)

/-- A crossing that a region sends or receives by is being re-centred (R280). -/
def State.recentring (s : State) (g : Nat) : Bool :=
  ((s.region g).xings.any fun x => x.2.busy) || (s.regions.any fun r => (SMap.get Crossing.reset r.2.xings g).busy)

/-- The release of a zone is held while a crossing of a member's region is re-centred (R280). -/
def State.releaseHeld (s : State) (z : BitVec 3) : Bool :=
  (s.members z).any fun m => s.recentring (regionOf m.1)

/-- Every member has arrived or counts as arrived (R244). -/
def State.allArrived (s : State) (z : BitVec 3) : Bool :=
  (s.members z).all fun m =>
    (s.zone z).arrived.contains m.1 || (match (s.ctx m.1 m.2).phase with
      | .done | .faulted => true
      | _ => false)

/-- Release a barrier whose last arrival is counted, or pass an EXT barrier to the group (R246, R249). -/
def State.checkBarrier (s : State) (z : BitVec 3) : State :=
  let zn := s.zone z
  match zn.first with
  | some f =>
    if zn.bar = .collecting && !zn.aborted && zn.arrived ≠ [] && s.allArrived z && !s.releaseHeld z then
      if f.ext then
        let s := s.modZone z fun x => { x with bar := .waitExt }
        let s := s.modXgroup z fun x => { x with localIn := true, state := if x.state = 3 then 3 else 1, phase := f.phase }
        match (s.xgroup z).kids.find? (fun k => k.2 ≠ f.phase) with
        | some k => if (s.xgroup z).state = 3 then s else s.groupMismatch z k.1 k.2.toNat
        | none => s.groupAdvance z
      else s.releaseBarrier z
    else s
  | none => s

/-- Everything that follows a change of a member's state: lane grants, the end of a pairing or a bubble, the barrier,
start releases, and region targets. -/
def State.settle (s : State) (z : BitVec 3) : State :=
  ((((((s.laneSettle z).hostDone z).guestEnded z).checkBarrier z).startReleases).retarget)

/-- A context in an exchange meets a fault of another engine: it stops at the end decision, its stream and post engines take nothing
more from now on (R74, R76, R264; assumption 75). -/
def State.stopLater (s : State) (t : TileId) (c : Bool) (origin : Nat) : State :=
  s.modCtx t c fun y => { y with stopPend := y.stopPend <|> some origin, streamHold := true, postQ := [] }

/-- A terminating fault (R74, R264, R265, R500): the record, the stop, the window, the zone's abort; of a context in an exchange, the
record now and the rest at the end decision. -/
def State.terminate (s : State) (t : TileId) (c : Bool) (code det : Nat) : State :=
  let z := (s.ctx t c).zone
  let exchanging := s.inExchange t c
  let s := s.programRecord code t c 1 det
  if exchanging then s.stopLater t c (s.log.next.toNat - 1)
  else
    let s := (s.stopCtx t c).openWindow 0 t.toNat t c true 1 none
    (s.zoneAbort z (s.log.next.toNat - 1)).settle z

/-- A context enters DONE (R193): a STEP ends, and the zone settles. -/
def State.taskDone (s : State) (t : TileId) (c : Bool) : State :=
  let s := s.modCtx t c fun y => { y with phase := .done, gate := .none, steps := 0 }
  (s.stepEnds t c).settle (s.ctx t c).zone

end Sys2Proof.Machine
end

