-- ==== Sys2Proof/Machine/Ladder.lean ====
section
/-! DEFINITION. The fence (R460), resets of contexts, tiles, clusters and regions (R297, R432–R437), abandoned grants (R309),
spare substitution (R32–R34) and the recovery ladder (R456–R459). -/

namespace Sys2Proof.Machine

/-! ### Fence -/

/-- INDEX of no record, where a reset or a fence names none. -/
def noRecord : Nat := 0xFFFFFFFF

/-- Fence the device and record it, naming the record of the cause (R460). -/
def State.fence (s : State) (cause : Nat) : State :=
  if s.log.fenced then s
  else
    let s := { s with log := { s.log with fenced := true, fenceCause := BitVec.ofNat 32 cause } }
    s.record 0x0602 3 4 0 false 0 7 (detail [(32, cause)])

/-! ### Delivery of alarms (R466, R467) -/

/-- Add the occurrences of a staged alarm to a record. -/
def mergeAlarm (a b : Record) : Record :=
  { a with count := BitVec.ofNat 32 (min 0xFFFFFFFF (a.count.toNat + b.count.toNat)), lastRc := b.lastRc }

/-- A staged alarm reaches the log: it coalesces into its open record, takes a free one, or coalesces into its code's
catch-all record (R466). -/
def State.deliverAlarm (s : State) (a : Record) : State :=
  let same (r : Record) : Bool := sameAlarm a r && !r.catchAll
  let all (r : Record) : Bool := decide (r.code = a.code) && r.catchAll
  let s := { s with log := { s.log with staged := eraseFirst (fun r => r = a) s.log.staged } }
  if s.log.alarms.any same then
    { s with log := { s.log with alarms := updateWhere same (mergeAlarm · a) s.log.alarms } }
  else if (s.log.alarms.filter fun r => !r.catchAll).length < 1024 then
    let r := { a with index := s.log.next }
    { s with log := { s.log with alarms := s.log.alarms ++ [r], next := s.log.next + 1 } }.addEvent r
  else if s.log.alarms.any all then
    let merge (r : Record) : Record := { mergeAlarm r a with multiUnit := true }
    { s with log := { s.log with alarms := updateWhere all merge s.log.alarms } }
  else
    let r := { a with index := s.log.next, catchAll := true }
    { s with log := { s.log with alarms := s.log.alarms ++ [r], next := s.log.next + 1 } }.addEvent r

/-- INDEX of the record that an alarm of a code and unit stands in. -/
def State.alarmIndex (s : State) (code level unit : Nat) : Nat :=
  match s.log.alarms.find? fun r => r.code = code && r.level = level && r.unit = unit with
  | some r => r.index.toNat
  | none => 0

/-! ### Abandoned grants (R309) -/

/-- The instance of a class holds its requests under this key. -/
def arbKey (cls inst : Nat) : Nat := 4096 * cls + inst

def State.arbInst (s : State) (cls inst : Nat) : ArbInst := SMap.get ArbInst.reset s.arb.insts (arbKey cls inst)
def State.modArbInst (s : State) (cls inst : Nat) (f : ArbInst → ArbInst) : State :=
  { s with arb := { s.arb with
      insts := SMap.put ArbInst.reset s.arb.insts (arbKey cls inst) (f (s.arbInst cls inst)) } }

/-- Record one abandoned grant in ARB_STAT_c. -/
def State.noteAbandon (s : State) (cls inst : Nat) : State :=
  let v := SMap.get 0 s.arb.stat cls
  let n : BitVec 16 := satInc (v.extractLsb' 0 16)
  let v' : Word32 := BitVec.ofNat 32 (2 ^ 31 + inst % 4096 * 65536 + n.toNat)
  { s with arb := { s.arb with stat := SMap.put 0 s.arb.stat cls v' } }

/-- A waiting PRIORITY replies when BUSY clears (R308, R424). -/
def State.pumpPriority (s : State) : State :=
  s.each s.host.waits fun s w => if w.kind = .priority then (s.unwait w).ok w.hdr w.opcode else s

/-- BUSY clears when every instance has adopted the copy (R308). -/
def State.commitDone (s : State) : State :=
  if s.arb.busy && s.arb.insts.all (fun e => !e.2.adopt) then
    { s with arb := { s.arb with busy := false, nActive := s.arb.nPending, mapActive := s.arb.mapPending } }.pumpPriority
  else s

/-- An instance adopts the pending copy and clears its grant counter (R308). -/
def ArbInst.adoptNow (x : ArbInst) : ArbInst := if x.adopt then { x with adopt := false, gcount := 0 } else x

/-- An instance without the lanes and the requests that a test names; one that has lost a lane adopts a pending copy (R305, R308). -/
def ArbInst.without (x : ArbInst) (p : ArbReq → Bool) : ArbInst :=
  let y : ArbInst := { x with owners := x.owners.filter (fun o => !p o.2), reqs := x.reqs.filter (fun r => !p r) }
  if y.owners.length = x.owners.length then y else y.adoptNow

/-- Release the lanes that a test names, their transfers being complete (R304). -/
def State.dropLanes (s : State) (p : ArbReq → Bool) : State :=
  let insts := (s.arb.insts.map fun e => (e.1, e.2.without p)).filter fun e => e.2 ≠ ArbInst.reset
  { s with arb := { s.arb with insts := insts } }.commitDone

/-- Change a message that is on the plane or landing. -/
def State.modPlane (s : State) (k : MsgKey) (f : PlaneMsg → PlaneMsg) : State :=
  let mine (e : PlaneMsg) : Bool := decide (msgKey e.msg = k)
  { s with post := { s.post with
      msgs := updateWhere mine f s.post.msgs
      landing := updateWhere (fun l => mine l.msg) (fun l => { l with msg := f l.msg }) s.post.landing } }

/-- A message with its transfer cut short after `n` bytes of header and payload: one of which not all of the header has passed
reaches no tile (R310). -/
def PlaneMsg.cutAt (e : PlaneMsg) (n : Nat) : PlaneMsg := { e with msg := { e.msg with cut := some (n - 16) } }

/-- The transfer of a message is cut short: of its bytes, how many had passed is open, but what has landed has. A packet that was made
of it loses granules in the same way (R310). -/
def State.cutPost (s : State) (k : MsgKey) : State :=
  let free := (s.freeBits 32).toNat
  let mine (m : PostMsg) : Bool := decide (msgKey m = k)
  let full (m : PostMsg) : Nat := 16 + 32 * m.len.toNat
  let cutPkt (o : OutPkt) : OutPkt := { o with pkt := { o.pkt with cut := some (free % (o.pkt.len.toNat + 1)) } }
  let s := match s.post.landing.find? fun l => mine l.msg.msg with
    | some l => s.modPlane k fun e => e.cutAt (max l.done (free % full e.msg))
    | none =>
      match s.post.msgs.find? fun (e : PlaneMsg) => mine e.msg with
      | some e =>
        if free % full e.msg < 16 then { s with post := { s.post with msgs := s.post.msgs.filter fun (e : PlaneMsg) => !mine e.msg } }
        else s.modPlane k fun e => e.cutAt (free % full e.msg)
      | none => { s with fabric := { s.fabric with
          outq := updateWhere (fun o => decide (o.pkt.type = 2) && mine (postOfPkt o.pkt)) cutPkt s.fabric.outq } }
  s.tookFree

/-- Release the grants whose owner a test names, their transfers being cut, and drop its waiting requests (R309, R310). -/
def State.release (s : State) (p : ArbReq → Bool) : State :=
  s.each s.arb.insts fun s e =>
    let lost := e.2.owners.filter fun o => p o.2
    let s := s.each lost fun s o =>
      let s := s.noteAbandon (e.1 / 4096) (e.1 % 4096)
      match o.2.item with
      | some k => s.cutPost k
      | none => s
    s.modArbInst (e.1 / 4096) (e.1 % 4096) fun a => a.without p

/-- Release the grants of an owner that is reset or fails; an instance that waited for it adopts a pending copy (R308, R309). -/
def State.abandon (s : State) (p : ArbReq → Bool) : State := (s.release p).commitDone

/-- The requests of one context of a tile at the first arbiters it meets (R303). -/
def reqOfCtx (t : TileId) (c : Bool) (r : ArbReq) : Bool :=
  let g := regionOf t
  let k := bits t.toNat 4 4
  let i := 2 * bits t.toNat 0 4 + b2n c
  (decide (r.cls = 0) && decide (r.inst = 9 * g + k) && decide (r.input = i)) ||
  (decide (r.cls = 1) && decide (r.inst / 16 = 9 * g + k) && decide (r.input = i)) ||
  (decide (r.cls = 5) && decide (r.inst = g) && decide (r.input = 2 * bits t.toNat 0 8 + b2n c))

/-! ### Substitution (R32–R34) -/

/-- What firmware keeps of a cluster's spare map: a pending substitution counts as made (R33, R35). -/
def Cluster.fields (c : Cluster) (k : Nat) : SpareFields :=
  { cluster := k, spareFailed := c.spareFailed, secondFail := c.secondFail, active := c.active <|> c.pend }

/-- Firmware writes a cluster's spare map into the repair record (R35). -/
def State.noteRepair (s : State) (k : Nat) : State :=
  { s with chip := { s.chip with
      repairRec := s.chip.repairRec.filter (fun e => e.cluster ≠ k) ++ [(s.cluster k).fields k] } }

/-- A context that is loaded on its tile: neither EMPTY nor, its state being in the save area, EVICTED (R69, R260;
assumption 73). -/
def Ctx.onTile (y : Ctx) : Bool := decide (y.phase ≠ .empty) && decide (y.phase ≠ .evicted)

/-- Position 16 carries a logical tile from now on (R32): its scratchpad is that of the seventeenth position, and the one of the
position that the tile had is used no more. -/
def State.swapSpare (s : State) (k : Nat) (p : BitVec 4) : State :=
  let t : TileId := BitVec.ofNat 12 (16 * k + p.toNat)
  let x := s.tile t
  let c := s.cluster k
  let s := s.modTile t fun x => { x with sp := c.spareSp, spErr := c.spareErr }
  s.modCluster k fun c => { c with spareSp := x.sp, spareErr := x.spErr }

/-- A pending substitution becomes active when no context is loaded on any tile of the cluster (R33); an EVICTED context is not loaded
there, its state being in its save area (DEDUCED, assumption 73). -/
def State.applySubst (s : State) (k : Nat) : State :=
  let loaded := s.tiles.any fun p => p.1 / 16 = k && (p.2.c0.onTile || p.2.c1.onTile)
  match (s.cluster k).pend, loaded || (s.cluster k).spareFailed with
  | some p, false => (s.swapSpare k p).modCluster k fun c => { c with active := some p, pend := none }
  | _, _ => s

/-- Every cluster's pending substitution, where it may become active. -/
def State.applySubsts (s : State) : State := s.each (s.clusters.map fun p => p.1) State.applySubst

/-- A tile is declared failed: TILE_FAILED, then a pending substitution or the second failure (R33, R34, R501). Reasons:
0 reset incomplete, 1 self-test, 2 host request. -/
def State.tileFailed (s : State) (t : TileId) (reason : Nat) : State :=
  let k := clusterOf t
  let pos := s.posOf t
  let cl := s.cluster k
  let det := detail [(32, pos), (33, reason)]
  let s := s.record 0x0301 1 1 (16 * k) false pos 8 det
  if cl.active.isSome || cl.pend.isSome || cl.spareFailed then
    let s := (s.modCluster k fun c => { c with secondFail := true }).noteRepair k
    s.alarm 0x0302 1 (16 * k) det false pos
  else
    ((s.modCluster k fun c => { c with pend := some (t.extractLsb' 0 4), pendReason := reason }).noteRepair k).applySubst k

/-- The seventeenth position of a cluster fails, for a reason of TILE_FAILED's: the tile that it carries fails (R34); where it
carries none, no repair is left in reserve, and a substitution that was to use it has none (assumption 73). -/
def State.spareFails (s : State) (k : Nat) (reason : Nat) : State :=
  let cl := s.cluster k
  match cl.active with
  | some p => s.tileFailed (BitVec.ofNat 12 (16 * k + p.toNat)) reason
  | none =>
    if cl.spareFailed then s
    else
      let s := (s.modCluster k fun c =>
        { c with spareFailed := true, secondFail := c.secondFail || c.pend.isSome }).noteRepair k
      s.alarm (if cl.pend.isSome then 0x0302 else 0x0303) 1 (16 * k) (detail [(32, 16), (33, reason)]) false 16

/-! ### Resets (R432–R437) -/

/-- A post ring after a reset that disabled it (R297). -/
def PostRing.afterReset : PostRing := { PostRing.reset with resetSeen := true }

/-- The rings of a context after a reset, or after an UNLOAD (R297). -/
def ringsAfter (unload : Bool) : SMap PostRing :=
  if unload then [] else (List.range 9).map fun k => (k, PostRing.afterReset)

/-- A context after a reset (R437). -/
def Ctx.afterReset (unload : Bool) : Ctx := { Ctx.reset with rings := ringsAfter unload }

/-- A zone that has lost its last member is free again: its abort ends, and its lanes and multicast entries are
released (R265, R270, R271, R437). -/
def State.zoneEmptied (s : State) (z : BitVec 3) : State :=
  if s.members z = [] then
    let zn := s.zone z
    let s := match zn.pair with
      | some p => if zn.role = 1 then s.endPair z id else s.endPair p id
      | none => s
    let clear (m : SMap (BitVec 144)) : SMap (BitVec 144) :=
      m.filter fun e => ¬ (zn.mcBase ≤ e.1 ∧ e.1 < zn.mcBase + zn.mcCount)
    let s := if zn.mcCount = 0 then s
             else s.each zn.mcRegions fun s g => s.modRegion g fun r => { r with mcast := clear r.mcast }
    s.modZone z fun _ => Zone.reset
  else s

/-- A message that a context of this device sent and that no arbiter has granted yet: it stands in the tile's send buffer (R304). -/
def PlaneMsg.unsent (e : PlaneMsg) (t : TileId) (c : Bool) : Bool :=
  decide (e.msg.src = t) && decide (e.msg.srcCtx = c) && match e.path with
    | h :: _ => decide (h.cls = 0) || (decide (h.cls = 1) && decide (h.input < 32))
    | [] => false

/-- The landing that is under way in a context. -/
def Landing.into (l : Landing) (t : TileId) (c : Bool) : Bool := decide (l.msg.msg.dest = t) && decide (l.msg.msg.destCtx = c)

/-- The post plane's side of a context that is emptied: a landing into it stops with its bytes as written, no status word, and a RESET
NACK; a reset abandons what the context sends (R297, R309, R310; assumption 25). An UNLOAD abandons nothing. -/
def State.emptyPost (s : State) (t : TileId) (c : Bool) (unload : Bool) : State :=
  let stopped := s.post.landing.filter fun l => l.into t c
  let s := { s with post := { s.post with landing := s.post.landing.filter fun l => !l.into t c } }
  let s := s.each stopped fun s l =>
    let s := s.dropLanes fun r => decide (r.item = some (msgKey l.msg.msg))
    if l.msg.msg.cut.isSome then s else s.answerPost l.msg.msg (l.msg.txid.getD 0) (some 3)
  if unload then s
  else
    let s := { s with post := { s.post with msgs := s.post.msgs.filter fun e => !(e.unsent t c && s.isOwn e.msg.srcDev) } }
    s.abandon (reqOfCtx t c)

/-- A request that a stream operation of a context made. -/
def MemReq.ofCtx (r : MemReq) (t : TileId) (c : Bool) : Bool :=
  decide (r.tile = t) && decide (r.ctx = c) && r.origin.isNone && decide (r.kind ≠ 8)

/-- Empty one context: its state, its work in flight and its grants (R309, R341, R437). -/
def State.emptyCtx (s : State) (t : TileId) (c : Bool) (unload : Bool) : State :=
  let wasActive := decide ((s.ctx t c).phase = .active)
  let s := s.stepEnds t c
  let s := s.modTile t fun x =>
    let x := x.dropEngines c
    let x := x.dropLines c
    let x := if wasActive then { x.clearStores with ib := [], ibAt := none, fills := [], burin := EngQ.reset, stylus := EngQ.reset,
                                                    stipple := EngQ.reset, xeng := EngQ.reset, xch := none }
             else x
    x.setCtx c (Ctx.afterReset unload)
  let s := { s with memory := { s.memory with reqs := s.memory.reqs.filter fun r => !r.ofCtx t c } }
  let s := { s with fabric := { s.fabric with postOut := s.fabric.postOut.filter fun r => ¬ (r.src = t ∧ r.srcCtx = c) } }
  s.emptyPost t c unload

/-- The zones that have a member among some contexts. -/
def State.zonesOf (s : State) (l : List (TileId × Bool)) : List (BitVec 3) :=
  allZones.filter fun z => l.any fun m => (s.ctx m.1 m.2).member z

/-- The zones with a member in the scope of a reset abort (R434). -/
def State.scopeAbort (s : State) (l : List (TileId × Bool)) (origin : Nat) : State :=
  s.each (s.zonesOf l) fun s z => s.zoneAbort z origin

/-- What follows when contexts have been emptied: free zones, substitutions, tiles that pass to their other context. -/
def State.afterEmpty (s : State) (zs : List (BitVec 3)) (ks : List Nat) : State :=
  let s := s.each zs State.zoneEmptied
  let s := s.each ks State.applySubst
  let s := s.each zs fun s z => s.settle z
  (s.startReleases).retarget

/-- A context reset (R432, R433): in an exchange it waits for the end decision. -/
def State.ctxReset (s : State) (t : TileId) (c : Bool) (unload : Bool) (origin : Nat) : State :=
  if s.inExchange t c then s.modCtx t c fun y => { y with resetPend := true }
  else
    let zs := s.zonesOf [(t, c)]
    let s := s.scopeAbort [(t, c)] origin
    (s.emptyCtx t c unload).afterEmpty zs [clusterOf t]

/-- One tile's state after a tile reset: the scratchpad is kept (R437). -/
def Tile.afterReset (x : Tile) : Tile :=
  { Tile.reset with sp := x.sp, spErr := x.spErr, scrubLine := x.scrubLine, c0 := Ctx.afterReset false,
                    c1 := Ctx.afterReset false }

/-- A reset of every tile of a list, at once (R433, R434, R437). -/
def State.tilesReset (s : State) (l : List TileId) (origin : Nat) : State :=
  let cs := bothCtx l
  let zs := s.zonesOf cs
  let s := s.scopeAbort cs origin
  let s := s.each cs fun s m => s.emptyCtx m.1 m.2 false
  let s := s.each l fun s t => s.modTile t Tile.afterReset
  s.afterEmpty zs (l.map clusterOf)

/-- The tiles of a cluster, and of a region, that the grade has. -/
def clusterTiles (k : Nat) : List TileId := (List.range 16).map fun i => BitVec.ofNat 12 (16 * k + i)
def State.regionTiles (s : State) (g : Nat) : List TileId :=
  (List.range s.clusterCount).flatMap fun c => clusterTiles (16 * g + c)
/-- Every tile of the grade. -/
def State.packageTiles (s : State) : List TileId := (List.range 16).flatMap fun g => s.regionTiles g

/-- Crossings that touch a region hold no calibration until they are calibrated again (R39, R279). -/
def Region.crossing (r : Region) (src : Nat) : Crossing := SMap.get Crossing.reset r.xings src
def State.modCrossing (s : State) (src g : Nat) (f : Crossing → Crossing) : State :=
  s.modRegion g fun r => { r with xings := SMap.put Crossing.reset r.xings src (f (r.crossing src)) }

/-- XCAL_VALID of a region: every crossing that touches it is valid (R39). -/
def State.xcalValidNow (s : State) (g : Nat) : Bool :=
  (List.range 16).all fun o => o = g || (((s.region g).crossing o).valid && ((s.region o).crossing g).valid)
def State.xcalRefresh (s : State) : State :=
  s.each (List.range 16) fun s g => s.modRegion g fun r => { r with xcalValid := s.xcalValidNow g }

/-- The crossings that touch a region are to be calibrated afresh: none of them holds a calibration until CROSSING_RECENTER has
measured it (R39, R279, R390). -/
def State.recalibrate (s : State) (g : Nat) : State :=
  let lost (x : Crossing) : Crossing := { x with valid := false, wander := 0, slipped := false, recalPend := true, busy := false }
  let s := s.each (List.range 16) fun s o => if o = g then s else (s.modCrossing o g lost).modCrossing g o lost
  s.xcalRefresh

/-- The 64-bit pairs of a region's blocks (R13): the high words captured and staged there. -/
def regionPair (g low : Nat) : Bool := decide (0x1000000 + g * 0x100000 ≤ low) && decide (low < 0x1000000 + (g + 1) * 0x100000)

/-- A region reset (R432, R437): its tiles, its steward, its translation caches, its clock code, its crossings, and the pairs of
its registers. -/
def State.regionReset (s : State) (g : Nat) (origin : Nat) : State :=
  let s := s.tilesReset (s.regionTiles g) origin
  let s := s.modRegion g fun r =>
    { r with stewardOk := s.domainOn (144 + g), xlatCache := [], invDone := true, clkActive := 8, clkTarget := 8,
             droop := false }
  let s := { s with host := { s.host with pairHold := s.host.pairHold.filter fun e => ¬ regionPair g e.1
                                          pairStage := s.host.pairStage.filter fun e => ¬ regionPair g e.1 } }
  s.recalibrate g

/-! ### The recovery ladder (R456–R459) -/

/-- The tile's unit at a level: the tile, its cluster (as a tile id with TILE = 0), its region, the chip. -/
def ladderUnit (level : Nat) (t : TileId) : Nat :=
  match level with
  | 0 => t.toNat
  | 1 => 16 * clusterOf t
  | 2 => regionOf t
  | _ => 0

/-- The action a level starts, coded as in R458. -/
def ladderAction (level : Nat) : Nat :=
  match level with
  | 0 => 1
  | 1 => 3
  | 2 => 4
  | _ => 5

/-- The tiles whose reset a level's action is. -/
def State.ladderTiles (s : State) (level : Nat) (t : TileId) : List TileId :=
  match level with
  | 1 => [t]
  | 2 => clusterTiles (clusterOf t)
  | _ => s.regionTiles (regionOf t)

def State.windowAt (s : State) (level unit : Nat) : Option Window :=
  s.log.windows.find? fun w => w.level = level && w.unit = unit

def State.closeWindow (s : State) (level unit : Nat) : State :=
  { s with log := { s.log with windows := s.log.windows.filter fun w => ¬ (w.level = level ∧ w.unit = unit) } }

/-- The record that opened a window is marked ESCALATED (R459). -/
def State.markEscalated (s : State) (r : Option (BitVec 32)) : State :=
  let mark (a : Record) : Record := if some a.index = r ∧ a.cls ≠ 2 then { a with escalated := true } else a
  { s with log := { s.log with errs := s.log.errs.map mark } }

/-- The RECOVERY record of a window that ends (R459, R462). -/
def State.recoveryRecord (s : State) (w : Window) (second : Option (BitVec 32)) (result : Nat) : State :=
  let idx (r : Option (BitVec 32)) : Nat := (r.getD 0xFFFFFFFF).toNat
  let us := (s.time - w.opened).toNat / 100
  let tile := decide (w.level = 0)
  s.record 0x0601 3 w.level w.unit (tile && w.ctx) (if w.level ≤ 1 then s.posOf w.tile else 0) w.action
    (detail [(32, idx w.rec1), (36, idx second), (40, w.level), (41, result), (44, us % 2 ^ 32)])

/-- A recovery reaches a level: its window opens and its action starts, or, its own window being open, it goes on to the
next level; above the chip the device fences (R457–R459). -/
def State.escalateTo : Nat → State → Nat → TileId → Bool → Option (BitVec 32) → Option (BitVec 32) → State
  | 0, s, _, _, _, r1, _ => s.fence (r1.getD 0).toNat
  | fuel + 1, s, level, t, c, r1, r2 =>
    if level ≥ 4 then s.fence (r1.getD 0).toNat
    else
      let unit := ladderUnit level t
      match s.windowAt level unit with
      | some w =>
        let s := (s.markEscalated w.rec1).recoveryRecord w r2 1
        escalateTo fuel (s.closeWindow level unit) (level + 1) t c w.rec1 r2
      | none =>
        let w : Window :=
          { level := level, unit := unit, tile := t, ctx := c, opened := s.time, rec1 := r1, rec2 := r2,
            program := false, action := ladderAction level }
        let s := { s with log := { s.log with windows := s.log.windows ++ [w] } }
        let s := if level = 1 then
            s.modCluster (clusterOf t) fun k =>
              { k with errPos := BitVec.ofNat 5 (s.posOf t), errAction := 3, errWindows := satInc k.errWindows }
          else if level = 2 then s.modCluster (clusterOf t) fun k => { k with errEscalated := true }
          else s
        s.scopeAbort (bothCtx (s.ladderTiles level t)) (r1.getD 0).toNat

/-- The window at a unit is escalated: its record is marked, RECOVERY with RESULT 1 is recorded, and the next level
takes the recovery (R459). -/
def State.escalateWindow (s : State) (w : Window) (second : Option (BitVec 32)) : State :=
  let s := (s.markEscalated w.rec1).recoveryRecord w second 1
  let s := s.closeWindow w.level w.unit
  s.escalateTo 5 (w.level + 1) w.tile w.ctx w.rec1 second

/-- A tile lies in the unit of a window (R458). -/
def Window.covers (w : Window) (t : TileId) : Bool :=
  match w.level with
  | 0 => decide (w.unit = t.toNat)
  | 1 => decide (w.unit / 16 = clusterOf t)
  | 2 => decide (w.unit = regionOf t)
  | _ => true

/-- A tile lies in the scope of the reset that a window's action makes (R456). -/
def Window.resets (w : Window) (t : TileId) : Bool :=
  match w.action with
  | 3 => decide (w.tile = t)
  | 4 => decide (clusterOf w.tile = clusterOf t)
  | 5 => decide (regionOf w.tile = regionOf t)
  | 6 => true
  | _ => false

/-- The open window of the lowest level that covers a tile (R457, R458). -/
def State.coveringWindow (s : State) (t : TileId) : Option Window :=
  let at' (l : Nat) : Option Window := s.log.windows.find? fun w => decide (w.level = l) && w.covers t
  ((at' 0 <|> at' 1) <|> at' 2) <|> at' 3

/-- A hardware error at a tile: its record, and a window, or the escalation of the open one that covers the tile. Inside the
scope of a reset under way it is absorbed and changes nothing (R458, R459). -/
def State.hwError (s : State) (code : Nat) (t : TileId) (c : Bool) (action det : Nat) (absorbed : Bool) : State :=
  let inReset := s.log.windows.any fun w => w.resets t
  let idx := s.log.next
  let s := s.record code 1 0 t.toNat c (s.posOf t) action det (absorbed || inReset)
  if inReset then s
  else match absorbed, s.coveringWindow t with
    | false, some w => s.escalateWindow w (some idx)
    | _, _ => s.openWindow 0 t.toNat t c false action (some idx)

/-- A hardware error that stops a context (R74, R100, R264, R455): one in an exchange stops at its end decision. -/
def State.hwStop (s : State) (code : Nat) (t : TileId) (c : Bool) (det : Nat) (absorbed : Bool) : State :=
  let z := (s.ctx t c).zone
  let idx := s.log.next.toNat
  let s := s.hwError code t c 1 det absorbed
  if s.inExchange t c then s.stopLater t c idx
  else
    let s := if (s.ctx t c).phase.ended then s else s.stopCtx t c
    (s.zoneAbort z idx).settle z

end Sys2Proof.Machine
end

