-- ==== Sys2Proof/Machine/Scratch.lean ====
section
/-! DEFINITION. The scratchpad (R70, R77–R102): bytes and check bits, circular regions, error counters and the stop of a
context that read an uncorrectable word. -/

namespace Sys2Proof.Machine

/-! ### Uncorrectable errors (R100, R102) -/

/-- REGION_CL_SP_UE keeps the first uncorrectable error. Sources: 0 port read, 1 scrubber, 2 host or debug read,
3 partial-write merge. -/
def State.noteUe (s : State) (t : TileId) (word source : Nat) : State :=
  let p := s.posOf t
  s.modCluster (clusterOf t) fun c =>
    if c.spUe.getLsbD 31 then { c with spUe := c.spUe ||| 0x40000000 }
    else { c with spUe := BitVec.ofNat 32 (2 ^ 31 + source * 2 ^ 28 + p * 2 ^ 23 + word * 8) }

/-- A port write of bytes, with the counts of the words it repairs and the note of an uncorrectable word it merges into
(R99, R100). -/
def State.spWrite (s : State) (t : TileId) (a : Nat) (l : List Byte) : State :=
  let x := s.tile t
  let partials := (wordsOf a l.length).filter fun w => ¬ (a ≤ 8 * w ∧ 8 * w + 8 ≤ a + l.length)
  let fixed := (partials.filter fun w => x.wordErr w = .single).length
  let s := match partials.find? fun w => (x.wordErr w).bad with
    | some w => s.noteUe t w 3
    | none => s
  (s.countCe t fixed).modTile t fun x => x.write a l

/-- DETAIL of SP_UE: the word's address and the reader, a row of R100's table (R462). -/
def ueDetail (word reader : Nat) : Nat := detail [(32, 8 * word), (36, reader)]

/-- The record of an uncorrectable word that a port read; poison that an earlier error made is absorbed (R100, R458, R462). -/
def State.ueRecord (s : State) (t : TileId) (c : Bool) (word reader : Nat) : State :=
  let absorbed := decide ((s.tile t).wordErr word = .poisoned)
  (s.noteUe t word 0).hwError 0x0201 t c 1 (ueDetail word reader) absorbed

/-- An uncorrectable word is read and no context stops for it: the note, and the record with no action (R100, R462; assumption 81). -/
def State.ueSeen (s : State) (t : TileId) (c : Bool) (word reader : Nat) : State :=
  let absorbed := decide ((s.tile t).wordErr word = .poisoned)
  (s.noteUe t word (if reader = 7 then 2 else 0)).record 0x0201 1 0 t.toNat c (s.posOf t) 0 (ueDetail word reader) absorbed

/-- A context stops for an uncorrectable word (R100, R462). -/
def State.stopUe (s : State) (t : TileId) (c : Bool) (word reader : Nat) : State :=
  let absorbed := decide ((s.tile t).wordErr word = .poisoned)
  (s.noteUe t word 0).hwStop 0x0201 t c (ueDetail word reader) absorbed

/-! ### Circular regions (R90–R98) -/

/-- Size in bytes. -/
def CircReg.bytes (r : CircReg) : Nat := r.size.toNat * 128
/-- Occupancy (R90). -/
def CircReg.occ (r : CircReg) : Nat :=
  if r.full then r.bytes else if r.bytes = 0 then 0 else (r.head + r.bytes - r.tail) % r.bytes
/-- Relative address of the base. -/
def CircReg.baseAddr (r : CircReg) : Nat := r.base.toNat * 128

/-- A pointer rounded up to a multiple of the access size, modulo the size (R92). -/
def CircReg.align (r : CircReg) (p s : Nat) : Nat := ceilDiv p s * s % r.bytes
/-- The advance of an access of s bytes from pointer p (R92). -/
def CircReg.advance (r : CircReg) (p s : Nat) : Nat := (r.align p s + r.bytes - p) % r.bytes + s

/-- A push of s bytes: the relative address it uses, none when refused, and the descriptor after it (R92, R93). -/
def CircReg.push (r : CircReg) (s : Nat) : Option Nat × CircReg :=
  if r.en && decide (r.advance r.head s ≤ r.bytes - r.occ) then
    let p := r.align r.head s
    (some (r.baseAddr + p),
     { r with head := (p + s) % r.bytes, full := decide (r.occ + r.advance r.head s = r.bytes) })
  else (none, { r with overrun := true })

/-- A pop of s bytes (R92, R93). -/
def CircReg.pop (r : CircReg) (s : Nat) : Option Nat × CircReg :=
  if r.en && decide (r.advance r.tail s ≤ r.occ) then
    let p := r.align r.tail s
    (some (r.baseAddr + p), { r with tail := (p + s) % r.bytes, full := false })
  else (none, { r with underrun := true })

/-- T_CR_ADV (R97). -/
def CircReg.adv (r : CircReg) (count : Nat) : CircReg :=
  if !r.en then { r with underrun := true }
  else if count = 0 then r
  else if count > r.occ then { r with tail := r.head, full := false, underrun := true }
  else { r with tail := (r.tail + count) % r.bytes, full := false }

end Sys2Proof.Machine
end

