-- ==== Sys2Proof/Machine/TRegs.lean ====
section
/-! DEFINITION. The T_ registers (R14, R186, R197–R203 and the registers of every chapter that has some) and the post status
line (R293, R294). -/

namespace Sys2Proof.Machine

/-- An engine holds work of a context. -/
def EngQ.has (e : EngQ) (c : Bool) : Bool :=
  e.queue.any (fun o => o.ctx = c) || e.running.any (fun o => o.ctx = c)

/-- Burin, Stylus and Stipple hold no work of a context (R66). -/
def Tile.drained (x : Tile) (c : Bool) : Bool := !x.burin.has c && !x.stylus.has c && !x.stipple.has c

def StreamOp.suspendedNow (o : StreamOp) : Bool :=
  match o.phase with
  | .suspended _ => true
  | _ => false

/-- T_ENG_BUSY. -/
def Tile.engBusy (x : Tile) (c : Bool) : Nat :=
  let y := x.ctx c
  y.postQ.length % 256 * 2 ^ 24 + y.stream.length % 256 * 2 ^ 16 + b2n (y.stream.any StreamOp.suspendedNow) * 256 +
  2 * b2n (x.burin.has c) + 4 * b2n (x.stylus.has c) + 8 * b2n (x.stipple.has c) + 16 * b2n (x.xeng.has c) +
  32 * b2n (decide (y.stream ≠ [])) + 64 * b2n (decide (y.postQ ≠ []))

/-- T_SIG_COUNT. -/
def Ctx.sigCount (y : Ctx) : Nat :=
  (List.range 16).foldl (fun a i => a + (SMap.get 0 y.sig i).toNat * 16 ^ i) 0

/-- The status word of ring k; ring 8 is the NACK ring (R294). -/
def Ctx.postStatus (y : Ctx) (k : Nat) : Nat :=
  let r := y.ring k
  let en := (y.cr (if k = 8 then 7 else 8 + k)).en
  b2n en * 2 ^ 63 + b2n r.parked * 2 ^ 62 + b2n r.resetSeen * 2 ^ 61 + r.drops.toNat * 2 ^ 40 +
    r.count.toNat * 2 ^ 24 + r.wptr % 2 ^ 21

/-- T_CRn_CFG. -/
def CircReg.cfgWord (r : CircReg) : Nat := b2n r.en * 2 ^ 63 + r.size.toNat * 2 ^ 21 + r.base.toNat * 2 ^ 7
/-- T_CRn_PTR. -/
def CircReg.ptrWord (r : CircReg) : Nat :=
  b2n r.underrun * 2 ^ 45 + b2n r.overrun * 2 ^ 44 + b2n r.full * 2 ^ 43 + b2n (decide (r.occ = 0)) * 2 ^ 42 +
    r.tail % 2 ^ 21 * 2 ^ 21 + r.head % 2 ^ 21

/-- T_SYNC_CFG; it reads zero while its context is EMPTY. -/
def State.syncCfg (s : State) (t : TileId) (c : Bool) : Nat :=
  let y := s.ctx t c
  let z := s.zone y.zone
  if y.phase = .empty then 0
  else b2n (s.xgroup y.zone).enabled * 2 ^ 15 + b2n y.storesLive * 2 ^ 14 + z.role.toNat * 2 ^ 12 +
    b2n z.pair.isSome * 2 ^ 11 + (z.pair.getD 0).toNat * 2 ^ 8 + y.zone.toNat

/-- T_SYNC_STAT. -/
def Ctx.syncStat (y : Ctx) : Nat :=
  y.lastEnd.toNat * 2 ^ 61 + y.lastLz.toNat * 2 ^ 40 + y.lastPhase.toNat * 2 ^ 32 + y.supersteps.toNat

/-- T_BUBBLE. -/
def State.bubbleReg (s : State) (t : TileId) (c : Bool) : Nat :=
  let y := s.ctx t c
  let z := s.zone y.zone
  if y.phase = .empty then 0
  else b2n (decide (z.reqs ≠ [])) * 2 ^ 63 + (if z.role = 1 then 0 else y.lastReturn.toNat) * 2 ^ 60 +
    y.bubbles.toNat * 2 ^ 32 + (if z.role = 2 then z.budget.toNat else 0)

/-- T_XLAT_SUSP: the suspended slots. -/
def Ctx.suspMask (y : Ctx) : Nat :=
  (y.stream.filter StreamOp.suspendedNow).foldl (fun a o => a ||| 2 ^ o.slot) 0

/-- The value that a TRD of a T_ register returns (R186, R197). -/
def State.tRead (s : State) (t : TileId) (c : Bool) (a : Nat) : Word :=
  let x := s.tile t
  let y := x.ctx c
  let n : Nat :=
    match a with
    | 0x000 => 0x08000000 + s.fuses.stepping.toNat * 256 + b2n s.fuses.grade288
    | 0x001 => s.fabric.devId.toNat * 2 ^ 24 + t.toNat * 2 ^ 12 + b2n c
    | 0x002 => x.partBase c * 65536 + x.partSize c / 65536 * 256 + x.bound
    | 0x003 => y.tcCount.toNat
    | 0x004 => s.time.toNat
    | 0x010 => y.sigCount
    | 0x011 => y.ovf.toNat
    | 0x012 => x.engBusy c
    | 0x020 => y.fpcsr.toNat
    | 0x030 => y.stpKeyLo.toNat
    | 0x031 => y.stpKeyHi.toNat
    | 0x032 => y.stpCtl.toNat
    | 0x033 => y.stpTn6.toNat
    | 0x080 => y.asid.toNat
    | 0x081 => y.xlatVa.toNat
    | 0x082 => y.xlatInfo.toNat
    | 0x083 => y.xlatElem.toNat
    | 0x084 => y.suspMask
    | 0x085 => y.strmErr.toNat
    | 0x0C0 => b2n y.postEn * 2 ^ 63 + y.statusBase.toNat * 128
    | 0x0C1 => y.postSeq.toNat
    | 0x0D0 => y.postStatus 8
    | 0x0E0 => s.syncCfg t c
    | 0x0E1 => y.syncStat
    | 0x0E2 => s.bubbleReg t c
    | 0x110 => b2n x.haltOnBrk * 2 ^ 63 + b2n x.audit * 2 ^ 62 + 2 * b2n x.c1.halted + b2n x.c0.halted
    | 0x111 => x.dbgHit.toNat
    | a =>
      if 0x008 ≤ a ∧ a < 0x00C then (SMap.get 0 y.args (a - 8)).toNat
      else if 0x040 ≤ a ∧ a < 0x060 then
        (if a % 2 = 0 then (y.cr ((a - 0x040) / 2)).cfgWord else (y.cr ((a - 0x040) / 2)).ptrWord)
      else if 0x0C8 ≤ a ∧ a < 0x0D0 then y.postStatus (a - 0x0C8)
      else if 0x100 ≤ a ∧ a < 0x104 then (SMap.get 0 x.ibp (a - 0x100)).toNat
      else if 0x108 ≤ a ∧ a < 0x10A then (SMap.get 0 x.wp (a - 0x108)).toNat
      else 0
  BitVec.ofNat 64 n

/-! ### The status line (R293) -/

/-- The 128 bytes of the status line. -/
def Ctx.statusLine (y : Ctx) : List Byte :=
  (List.range 9).flatMap (fun k => leBytes 8 (y.postStatus k)) ++ List.replicate 56 0

/-- Whether a tile runs on the exchange clock. -/
def State.onExchangeClock (s : State) (t : TileId) : Bool := s.inExchange t false || s.inExchange t true

/-- POST_STATUS_UPDATE: write the block of the status line that holds ring k's word, 64 bytes outside an exchange and 32
in one (R293). -/
def State.statusUpdate (s : State) (t : TileId) (c : Bool) (k : Nat) : State :=
  let y := s.ctx t c
  if y.postEn then
    let n := if s.onExchangeClock t then 32 else 64
    let off := 8 * k / n * n
    s.spWrite t ((s.tile t).phys c (y.statusBase.toNat * 128 + off)) (sliceBytes y.statusLine off n)
  else s

/-! ### Writes -/

/-- A write that violates the partition, at row 2 of R72's table. -/
def partDetail (pc row addr : Nat) : Nat := detail [(32, pc % 2 ^ 32), (36, row), (40, addr % 2 ^ 32)]

/-- The ring that a descriptor is, if it is one (R91). -/
def ringOf (n : Nat) : Option Nat := if n = 7 then some 8 else if 8 ≤ n ∧ n < 16 then some (n - 8) else none

/-- A write of T_CRn_CFG: none where base + size violates the partition (R72, R98). -/
def State.writeCrCfg (s : State) (t : TileId) (c : Bool) (n : Nat) (v : Word) : Option State :=
  let size := bits v.toNat 21 15
  let base := bits v.toNat 7 14
  if (s.tile t).inPart c (base * 128) (size * 128) then
    let r : CircReg :=
      { CircReg.reset with en := v.getLsbD 63 && decide (size ≠ 0) && decide (size ≤ 16384),
                           size := BitVec.ofNat 15 size, base := BitVec.ofNat 14 base }
    let s := s.modCtx t c fun y => y.setCr n r
    match ringOf n with
    | some k => some ((s.modCtx t c fun y => y.setRing k { PostRing.reset with parked := (y.ring k).parked }).statusUpdate t c k)
    | none => some s
  else none

/-- A write of T_POST_CFG: none where the status line violates the partition. -/
def State.writePostCfg (s : State) (t : TileId) (c : Bool) (v : Word) : Option State :=
  let base := bits v.toNat 7 14
  if (s.tile t).inPart c (base * 128) 128 then
    let s := s.modCtx t c fun y => { y with postEn := v.getLsbD 63, statusBase := BitVec.ofNat 14 base }
    let y := s.ctx t c
    some (if y.postEn then s.spWrite t ((s.tile t).phys c (base * 128)) y.statusLine else s)
  else none

/-- T_FPCSR after a write: the flags take the written bits, and a rounding code 5–7 leaves RM unchanged (R117). -/
def fpcsrWrite (old : BitVec 13) (v : Word) : BitVec 13 :=
  let rm := if bits v.toNat 0 3 ≤ 4 then bits v.toNat 0 3 else bits old.toNat 0 3
  BitVec.ofNat 13 (bits v.toNat 8 5 * 256 + rm)

/-- A write of a T_ register, by each field's access code (R14, R186); none where it faults (R187). -/
def State.tWrite (s : State) (t : TileId) (c : Bool) (a : Nat) (v : Word) : Option State :=
  let mod (f : Ctx → Ctx) : Option State := some (s.modCtx t c f)
  match a with
  | 0x011 => mod fun y => { y with ovf := y.ovf &&& ~~~ (v.extractLsb' 0 16) }
  | 0x020 => mod fun y => { y with fpcsr := fpcsrWrite y.fpcsr v }
  | 0x030 => mod fun y => { y with stpKeyLo := v }
  | 0x031 => mod fun y => { y with stpKeyHi := v }
  | 0x032 => mod fun y => { y with stpCtl := v &&& 1 }
  | 0x033 => mod fun y => { y with stpTn6 := v }
  | 0x060 => mod fun y => let n := bits v.toNat 0 4; y.setCr n ((y.cr n).adv (bits v.toNat 32 22))
  | 0x085 => mod fun y => { y with strmErr := y.strmErr &&& ~~~ (v &&& 0xC000000000000000) }
  | 0x0C0 => s.writePostCfg t c v
  | a =>
    if 0x040 ≤ a ∧ a < 0x060 then
      let n := (a - 0x040) / 2
      if a % 2 = 0 then s.writeCrCfg t c n v
      else mod fun y =>
        let r := y.cr n
        y.setCr n { r with underrun := r.underrun && !v.getLsbD 45, overrun := r.overrun && !v.getLsbD 44 }
    else some s

end Sys2Proof.Machine
end

