-- ==== Sys2Proof/Machine/Time.lean ====
section
/-! DEFINITION. The passing of one reference cycle (assumption 2): T_TIME (R201) and T_TC_COUNT (R200). -/

namespace Sys2Proof.Machine

/-- The tile's compute clock runs: no fence, and the core reference is there (R41, R460). -/
def State.clocksRun (s : State) : Bool := !s.log.fenced && !s.chip.refLost

/-- A context that T_TC_COUNT counts for: active, and not between a release and its end decision (R200). -/
def State.counts (s : State) (y : Ctx) : Bool :=
  decide (y.phase = .active) && !(decide (y.gate = .barrier) && decide ((s.zone y.zone).bar = .exchanging))

/-- Sixteenths of a tc that one rc holds in a region: (32 + k) / 4 tc, halved by each stretch in force (R37, R250, R251,
R403). -/
def State.tcSixteenths (s : State) (g : Nat) : Nat :=
  let r := s.region g
  let base := 4 * (32 + r.clkActive.toNat)
  let base := if s.power.excess then base / 2 else base
  if r.droop then base / 2 else base

/-- A count plus n, saturating (R251). -/
def satAdd (c : Word32) (n : Nat) : Word32 := BitVec.ofNat 32 (min 0xFFFFFFFF (c.toNat + n))

/-- One reference cycle: T_TIME, the predicted power and the voltages that follow a thermal cap (R401, R402), the cycle counts of
running contexts, and the counts of stretched cycles (R251). -/
def tick (s : State) : State :=
  let s := { s with time := s.time + 1, power := { s.power with predInt := s.power.predInt + s.predNow } }.voltagesFollow
  if s.clocksRun then
    let s := if s.power.pkgDroop then { s with power := { s.power with stretchPkg := satAdd s.power.stretchPkg 16 } } else s
    let add (t : Nat) : Nat := ((s.region (t / 256)).tcFrac + s.tcSixteenths (t / 256)) / 16
    let bump (n : Nat) (y : Ctx) : Ctx := if s.counts y then { y with tcCount := y.tcCount + BitVec.ofNat 64 n } else y
    let upd (p : Nat × Tile) : Nat × Tile :=
      if s.counts p.2.c0 || s.counts p.2.c1 then
        (p.1, { p.2 with c0 := bump (add p.1) p.2.c0, c1 := bump (add p.1) p.2.c1 })
      else p
    let frac (s' : State) (g : Nat) : State :=
      if (s.region g).droop || s.tiles.any fun p => p.1 / 256 = g && (s.counts p.2.c0 || s.counts p.2.c1) then
        s'.modRegion g fun r =>
          { r with tcFrac := (r.tcFrac + s.tcSixteenths g) % 16
                   droopCount := if r.droop then satAdd r.droopCount (add (256 * g)) else r.droopCount }
      else s'
    (List.range 16).foldl frac { s with tiles := s.tiles.map upd }
  else s

end Sys2Proof.Machine
end

