-- ==== Sys2Proof/Machine/Operands.lean ====
section
/-! DEFINITION. How the scalar core issues an instruction and reaches its operands: the issue rules (R60, R72, R474–R477),
loads and stores with both operand forms (R180–R182), and the operand captures of engine instructions (R54). -/

namespace Sys2Proof.Machine

/-- The tile executes: its id exists, its cluster is on, the clocks run, and no compute stop is in force. -/
def State.tileRuns (s : State) (t : TileId) : Bool := s.validTile t && s.clocksRun && s.domainOn (domainOf t)

/-- The context whose next instruction may enter D, if there is one: the ACTIVE one, not halted or with a STEP under
way, whose gate the test accepts (R60, R474, R476). -/
def State.issuer (s : State) (t : TileId) (g : Gate → Bool) : Option Bool :=
  match (s.tile t).active with
  | some c =>
    let y := s.ctx t c
    if s.tileRuns t && (!y.halted || decide (y.steps > 0)) && g y.gate then some c else none
  | none => none

/-- The gate is open. -/
def Gate.open : Gate → Bool
  | .none => true
  | _ => false

/-- The instruction breakpoint that matches, the lowest number first (R477). -/
def Tile.ibpMatch (x : Tile) (c : Bool) (pc : Nat) : Option Nat :=
  (List.range 4).find? fun k =>
    let v := SMap.get 0 x.ibp k
    v.getLsbD 63 && v.getLsbD (if c then 61 else 62) && decide (bits v.toNat 3 18 * 8 = pc)

/-- The uncorrectable word of the buffered line that holds the instruction, as its fill found it (R100). -/
def Tile.lineUe (x : Tile) (c : Bool) (pc : Nat) : Option Nat := (x.ibLine c pc).bind fun l => l.ue

/-- An instruction that entered D counts for a STEP; the last one halts the context again, and the command replies
(R476). -/
def State.countStep (s : State) (t : TileId) (c : Bool) : State :=
  let y := s.ctx t c
  if y.halted ∧ y.steps > 0 ∧ y.phase = .active then
    let s := s.modCtx t c fun y => { y with steps := y.steps - 1 }
    if y.steps = 1 then
      let s := s.haltCtx t c 2 0 0
      match s.host.waits.find? (fun w => w.kind = .step t c) with
      | some w => (s.unwait w).ok w.hdr w.opcode (s.ctx t c).pc.toNat
      | none => s
    else s
  else s

/-- Move past the instruction. -/
def State.advance (s : State) (t : TileId) (c : Bool) : State := s.modCtx t c fun y => { y with pc := y.pc + 8 }

/-- An instruction entering D, its effect given: fetch faults, uncorrectable lines and breakpoints come first. While its line is
absent the instruction waits, and the line's fill is started (R51); one that stalls in D or M changes nothing (R49, R54). A line
that was prefetched with an uncorrectable word and is never executed stops nothing (DESIGN CHOICE, assumption 74). -/
def State.enterD (s : State) (t : TileId) (c : Bool) (f : State → State) (stall : Bool := false) : State :=
  let x := s.tile t
  let y := x.ctx c
  let pc := y.pc.toNat
  if pc ≥ x.partSize c then s.terminate t c 0x0102 (partDetail pc 0 pc)
  else if (x.ibLine c pc).isNone then s.modTile t fun x => x.startFill c (x.phys c pc / 128)
  else match x.lineUe c pc with
    | some w => s.stopUe t c w 1
    | none =>
      match (if y.skipMatch then none else x.ibpMatch c pc) with
      | some k => s.haltCtx t c 3 k 0
      | none =>
        if stall then s
        else
        let r := s.region (regionOf t)
        let inRange := decide (bits r.trcLo.toNat 0 18 * 8 ≤ pc) && decide (pc ≤ bits r.trcHi.toNat 0 18 * 8 + 7)
        let s := if inRange then s.trace t c 1 [(12, pc), (16, (x.fetchWord c pc).toNat)] else s
        let s := s.modTile t fun x => x.touch c pc
        let s := f (s.modCtx t c fun y => { y with skipMatch := false })
        if (s.ctx t c).gate.open then s.countStep t c else s

/-- Issue an instruction of the active context (R47): its effect, or nothing where no instruction may issue or the
instruction stalls. -/
def State.issueUnless (s : State) (t : TileId) (stall : Bool → Bool) (f : Bool → State → State) : Res :=
  match s.issuer t Gate.open with
  | some c => .next (s.enterD t c (f c) (stall c))
  | none => .next s

/-- Issue an instruction that never stalls. -/
def State.issue (s : State) (t : TileId) (f : Bool → State → State) : Res := s.issueUnless t (fun _ => false) f

/-- An instruction that writes one register and goes on (R177, R179). -/
def State.issueRd (s : State) (t : TileId) (rd : RegNo) (f : Ctx → Word) : Res :=
  s.issue t fun c s => (s.modCtx t c fun y => y.setReg rd (f y)).advance t c

/-- The illegal-opcode fault at D (R172, R196, R462). -/
def State.illegal (s : State) (t : TileId) (c : Bool) (word : Word) : State :=
  let pc := (s.ctx t c).pc.toNat
  s.terminate t c 0x0101 (detail [(32, pc % 2 ^ 32), (40, word.toNat)])

/-- The illegal-opcode fault on the word being executed. -/
def State.illegalHere (s : State) (t : TileId) (c : Bool) : State :=
  s.illegal t c ((s.tile t).fetchWord c (s.ctx t c).pc.toNat)

/-! ### Loads and stores (R180–R183) -/

/-- The watchpoint that matches an access, the lowest number first (R477). -/
def Tile.wpMatch (x : Tile) (c : Bool) (a n : Nat) (wr : Bool) : Option Nat :=
  (List.range 2).find? fun k =>
    let v := SMap.get 0 x.wp k
    let sz := 2 ^ min 16 (bits v.toNat 54 5)
    let lo := bits v.toNat 0 21 / sz * sz
    v.getLsbD 63 && v.getLsbD (if c then 61 else 62) && v.getLsbD (if wr then 59 else 60) &&
      decide (a < lo + sz) && decide (lo < a + n)

/-- The halt of a watchpoint, after the access (R477). -/
def State.watch (s : State) (t : TileId) (c : Bool) (a n : Nat) (wr : Bool) : State :=
  match (s.tile t).wpMatch c a n wr with
  | some k => s.haltCtx t c 4 k 0
  | none => s

/-- Effective address of a scalar access (R181). -/
def Ctx.ea (y : Ctx) (m : MemArg) : Word := y.reg m.rs1 + m.off.signExtend 64

/-- The aligned address of a scalar access with CRM = 0, none where it violates the partition (R181). -/
def Tile.scalarAddr (x : Tile) (c : Bool) (m : MemArg) (n : Nat) : Option Nat :=
  let ea := ((x.ctx c).ea m).toNat
  if ea < x.partSize c then some (ea / n * n) else none

/-- The partition fault of a scalar access. -/
def State.scalarFault (s : State) (t : TileId) (c : Bool) (a : Nat) : State :=
  s.terminate t c 0x0102 (partDetail (s.ctx t c).pc.toNat 1 a)

/-- A load of n bytes from a relative address: the register, the watchpoint and the program counter, or the stop for an
uncorrectable word (R100). -/
def State.loadAt (s : State) (t : TileId) (c : Bool) (rd : RegNo) (a n : Nat) (ext : Nat → Word) : State :=
  let x := s.tile t
  let p := x.phys c a
  match x.badWord p n with
  | some w => s.stopUe t c w 0
  | none =>
    let v := ext (leNat (x.read p n))
    let s := s.countCe t (x.singles p n)
    ((s.modCtx t c fun y => y.setReg rd v).advance t c).watch t c a n false

/-- A scalar load (R181, R182). -/
def State.load (s : State) (t : TileId) (rd : RegNo) (m : MemArg) (n : Nat) (ext : Nat → Word) : Res :=
  s.issue t fun c s =>
    let x := s.tile t
    if ¬ memArgOk m then s.illegalHere t c
    else if m.crm then
      let r := ((x.ctx c).cr m.cr.toNat).pop n
      let s := s.modCtx t c fun y => y.setCr m.cr.toNat r.2
      match r.1 with
      | some a => s.loadAt t c rd a n ext
      | none => (s.modCtx t c fun y => y.setReg rd 0).advance t c
    else match x.scalarAddr c m n with
      | some a => s.loadAt t c rd a n ext
      | none => s.scalarFault t c ((x.ctx c).ea m).toNat

/-- A store of bytes at a relative address. -/
def State.storeAt (s : State) (t : TileId) (c : Bool) (a : Nat) (l : List Byte) : State :=
  ((s.spWrite t ((s.tile t).phys c a) l).advance t c).watch t c a l.length true

/-- A scalar store of the low bytes of rsd (R181, R182). -/
def State.store (s : State) (t : TileId) (rsd : RegNo) (m : MemArg) (n : Nat) : Res :=
  s.issue t fun c s =>
    let x := s.tile t
    let l := leBytes n ((x.ctx c).reg rsd).toNat
    if ¬ memArgOk m then s.illegalHere t c
    else if m.crm then
      let r := ((x.ctx c).cr m.cr.toNat).push n
      let s := s.modCtx t c fun y => y.setCr m.cr.toNat r.2
      match r.1 with
      | some a => s.storeAt t c a l
      | none => s.advance t c
    else match x.scalarAddr c m n with
      | some a => s.storeAt t c a l
      | none => s.scalarFault t c ((x.ctx c).ea m).toNat

/-- Sign extension of the low n bytes (R180). -/
def sextBytes (n : Nat) (v : Nat) : Word := (BitVec.ofNat (8 * n) v).signExtend 64
/-- Zero extension of the low n bytes (R180). -/
def zextBytes (n : Nat) (v : Nat) : Word := (BitVec.ofNat (8 * n) v).zeroExtend 64

/-! ### Engine instructions (R53, R54) -/

/-- A per-tile engine by number (R53): 1 Burin, 2 Stylus, 3 Stipple, 4 the exchange engine. -/
def Tile.eng (x : Tile) (e : Nat) : EngQ :=
  match e with
  | 1 => x.burin
  | 2 => x.stylus
  | 3 => x.stipple
  | _ => x.xeng

def Tile.setEng (x : Tile) (e : Nat) (q : EngQ) : Tile :=
  match e with
  | 1 => { x with burin := q }
  | 2 => { x with stylus := q }
  | 3 => { x with stipple := q }
  | _ => { x with xeng := q }

/-- The wait and signal fields of an instruction that an engine holds. -/
def engWaitSig : Instr → WaitSig
  | .mstat _ w _ | .mmul _ w _ | .mread _ w _ => w
  | .vadd _ w _ | .vsub _ w _ | .vmul _ w _ | .vdiv _ w _ | .vsqrt _ w _ | .vfma _ w _ | .vfms _ w _ | .vfnma _ w _ => w
  | .vrem _ w _ | .vmin _ w _ | .vmax _ w _ | .vminnum _ w _ | .vmaxnum _ w _ | .vrint _ w _ | .vscaleb _ w _ => w
  | .vlogb _ w _ | .vnext _ w _ | .vcmp _ w _ | .vclass _ w _ | .vsgn _ w _ | .vcvtr _ w _ _ _ => w
  | .viadd _ w _ | .visub _ w _ | .vimul _ w _ | .vand _ w _ | .vor _ w _ | .vxor _ w _ | .vshl _ w _ | .vshr _ w _ => w
  | .vimin _ w _ | .vimax _ w _ | .vicmp _ w _ | .vsel _ w _ | .vsplat _ w _ | .vperm _ w _ | .vred _ w _ | .vsf _ w _ => w
  | .vgumbel _ w _ _ _ | .vld _ w _ | .vst _ w _ _ _ _ | .vldl _ w _ _ _ _ _ | .vstl _ w _ _ _ _ _ | .vstg _ w _ _ => w
  | .vcvt _ w _ | .vsplit32 _ w _ _ _ _ _ | .vslice64 _ w _ _ _ _ _ _ _ | .vsample _ w _ => w
  | .rraw128 _ w _ | .rraw32 _ w _ | .runi _ w _ | .rbern _ w _ => w
  | .xrun _ w _ _ | .psend _ w _ | .sdesc _ w _ | .sget _ w _ | .sput _ w _ | .samo _ w _ | .sflag _ w _ _ _ _ => w
  | .fence _ w _ => w
  | _ => ⟨none, none⟩

/-! ### Waiters on one counter (R57–R60) -/

/-- The instructions of a context at the heads of the queues of engines above `e`, from Burin to the post engine, that wait on counter
k (R53, R59). -/
def Tile.waitersAbove (x : Tile) (c : Bool) (e : Nat) (k : BitVec 4) : Nat :=
  let y := x.ctx c
  let waits (o : EngOp) : Bool := decide (o.ctx = c) && decide ((engWaitSig o.ins).wait = some k)
  let own := [1, 2, 3].filter fun n => decide (e < n) && (x.eng n).queue.head?.any waits
  let stream := decide (e < 5) && !y.streamHold && (y.stream.find? fun o => o.phase = .queued).any fun o => waits o.op
  let post := decide (e < 6) && y.postQ.head?.any waits
  own.length + b2n stream + b2n post

/-- An instruction of engine e may take the count it waits for: one is left when the waiting heads of the engines with higher numbers
have taken theirs (R57, R59). -/
def Tile.mayTake (x : Tile) (c : Bool) (e : Nat) : Option (BitVec 4) → Bool
  | none => true
  | some k => decide (x.waitersAbove c e k < ((x.ctx c).sigOf k).toNat)

/-- Queue depth (R53). -/
def engDepth (e : Nat) : Nat :=
  match e with
  | 2 => 16
  | 4 => 2
  | _ => 8

/-- What D captures for an engine: operands, rounding direction, key and generator (R54, R114, R158). -/
def Ctx.capture (y : Ctx) (c : Bool) (ins : Instr) (regs : List RegNo) : EngOp :=
  { ins := ins, ctx := c, regs := regs.map y.reg, rm := y.fpcsr.extractLsb' 0 3, key := y.stpKeyHi ++ y.stpKeyLo,
    tn6 := y.stpCtl.getLsbD 0, pc := y.pc }

/-- Issue an instruction to a per-tile engine: reserved fields raise the illegal-opcode fault, a full queue stalls
(R54, R172, R204). -/
def State.issueEng (s : State) (t : TileId) (e : Nat) (ins : Instr) (regs : List RegNo) (ok : Bool := instrOk ins) : Res :=
  s.issueUnless t (fun _ => ok && decide (((s.tile t).eng e).queue.length ≥ engDepth e)) fun c s =>
    if ok then
      (s.modTile t fun x =>
        x.setEng e { x.eng e with queue := (x.eng e).queue ++ [(x.ctx c).capture c ins regs] }).advance t c
    else s.illegalHere t c

/-! ### Branches (R184) -/

/-- The target of a branch: PC + 8 × OFF24. -/
def branchTarget (pc : Word) (off : BitVec 24) : Word := pc + 8 * off.signExtend 64

/-- A conditional branch (R184). -/
def State.branch (s : State) (t : TileId) (rs1 rs2 : RegNo) (off : BitVec 24) (p : Word → Word → Bool) : Res :=
  s.issue t fun c s =>
    s.modCtx t c fun y =>
      { y with pc := if p (y.reg rs1) (y.reg rs2) then branchTarget y.pc off else y.pc + 8 }

end Sys2Proof.Machine
end

