-- ==== Sys2Proof/Machine/Post.lean ====
section
/-! DEFINITION. Post messages (R234, R288–R302): sends, their delivery into rings, refusals and NACK records. -/

namespace Sys2Proof.Machine

/-! ### Sending (R234, R289, R290, R295) -/

/-- PSEND enters its context's post queue; a full queue stalls (R54, R234). -/
def execPsend (t : TileId) (w : WaitSig) (f : PsendF) (s : State) : Res :=
  let ins := Instr.psend t w f
  s.issueUnless t (fun c => instrOk ins && decide ((s.ctx t c).postQ.length ≥ 16)) fun c s =>
    if instrOk ins then
      (s.modCtx t c fun y => { y with postQ := y.postQ ++ [y.capture c ins [f.rdst, f.rsrc]] }).advance t c
    else s.illegalHere t c

/-- The message that a PSEND sends, with its payload (R234, R288). -/
def State.postMsg (s : State) (t : TileId) (c : Bool) (o : EngOp) (f : PsendF) (payload : List Byte) : PostMsg :=
  let d := (o.regs.getD 0 0).toNat
  { destDev := BitVec.ofNat 15 (bits d 12 15), dest := BitVec.ofNat 12 d, destCtx := d.testBit 27, len := f.len,
    srcDev := s.fabric.devId, src := t, srcCtx := c, tag := if f.tagr then BitVec.ofNat 16 (bits d 32 16) else f.tag,
    seq := (s.ctx t c).postSeq, payload := payload, poisoned := false, cut := none }

/-- The arbiters that a message from a tile has to pass on its way to a tile of this device, or to the fabric (R290, R303). -/
def localPath (t : TileId) (c : Bool) (dest : Option TileId) : List ArbHop :=
  let g := regionOf t
  let k := bits t.toNat 4 4
  let i := 2 * bits t.toNat 0 4 + b2n c
  match dest with
  | none => [⟨0, 9 * g + k, i⟩, ⟨2, g, k⟩, ⟨4, 16, g⟩]
  | some d =>
    let h := regionOf d
    let m := bits d.toNat 4 4
    let dlv := 16 * (9 * h + m) + bits d.toNat 0 4
    if clusterOf d = clusterOf t then [⟨1, dlv, i⟩]
    else if h = g then [⟨0, 9 * g + k, i⟩, ⟨3, 9 * h + m, k⟩, ⟨1, dlv, 32⟩]
    else [⟨0, 9 * g + k, i⟩, ⟨2, g, k⟩, ⟨4, h, g⟩, ⟨3, 9 * h + m, 9⟩, ⟨1, dlv, 32⟩]

/-- Those that a message from a fabric ingress has to pass (R290, R303). -/
def ingressPath (e : Nat) (d : TileId) : List ArbHop :=
  let h := regionOf d
  let m := bits d.toNat 4 4
  [⟨4, h, 16 + e / 2⟩, ⟨3, 9 * h + m, 9⟩, ⟨1, 16 * (9 * h + m) + bits d.toNat 0 4, 32⟩]

/-- Put a message on the plane, before its first request. -/
def State.pushMsg (s : State) (m : PostMsg) (txid : Option (BitVec 32)) (path : List ArbHop) : State :=
  let e : PlaneMsg := { msg := m, txid := txid, path := path, stamp := 0, old := false }
  { s with post := { s.post with msgs := s.post.msgs ++ [e] } }

/-- Route a message by its DEST_ADDR (R290, R295): towards a tile of this device, towards the fabric, or back as BADDEST. -/
def State.routePost (s : State) (m : PostMsg) : State :=
  let e := s.routeEntry m.destDev.toNat
  if s.isOwn m.destDev then
    if s.validTile m.dest then s.pushMsg m none (localPath m.src m.srcCtx (some m.dest)) else s.pushNack (msgNack m 4)
  else if ¬ entryOk e ∨ bits m.dest.toNat 4 4 > 8 ∨ (entryLegacy e ∧ m.len.toNat > 4) then s.pushNack (msgNack m 4)
  else s.pushMsg m none (localPath m.src m.srcCtx none)

/-- The chip stage has granted a message its path to the fabric: its outstanding record is made, and its packet (R295). -/
def State.toFabric (s : State) (m : PostMsg) (stamp : BitVec 16) : State :=
  let tx := s.memory.nextTx
  let r : PostOut :=
    { txid := tx, src := m.src, srcCtx := m.srcCtx, seq := m.seq, tag := m.tag, destWord := msgDestWord m, issued := s.time }
  let s := { s with memory := { s.memory with nextTx := tx + 1 }
                    post := { s.post with msgs := eraseFirst (fun e => e.msg = m) s.post.msgs }
                    fabric := { s.fabric with postOut := s.fabric.postOut ++ [r] } }
  let p := s.mkPkt 2 m.destDev tx 0 0 (msgGranules m)
  s.sendPkt { p with cut := m.cut.map fun b => (16 + b) / 64 } none (some stamp)

/-- POST_SEND_ACCEPT: the send at the head of a context's post queue takes its count and its SEQ, its source bytes are
checked and read, the message leaves, and the send finishes with its signal (R57, R72, R100, R234, R289). -/
def execPostSendAccept (t : TileId) (ctx : Bool) (s : State) : Res :=
  let x := s.tile t
  let y := x.ctx ctx
  match y.postQ with
  | o :: rest =>
    match o.ins with
    | .psend _ w f =>
      let a := (o.regs.getD 1 0).toNat / 32 * 32
      let n := 32 * f.len.toNat
      let p := x.phys ctx a
      let m := s.postMsg t ctx o f (x.read p n)
      if s.tileRuns t && (s.tile t).mayTake ctx 6 w.wait then
        if n ≠ 0 ∧ ¬ x.inPart ctx a n then .next (s.terminate t ctx 0x0102 (partDetail o.pc.toNat 5 (max a (x.partSize ctx))))
        else
          let s := s.modCtx t ctx fun y => { y.takeOpt w.wait with postQ := rest, postSeq := y.postSeq + 1 }
          match x.badWord p n with
          | some b => .next (s.stopUe t ctx b 3)
          | none =>
            let s := (s.countCe t (x.singles p n)).routePost m
            let s := s.tracePost t ctx m.tag [(12, 0), (13, bits m.tag.toNat 13 3), (14, m.tag.toNat), (16, m.seq.toNat),
              (20, tileAddr m.destDev m.dest m.destCtx)]
            .next (s.modCtx t ctx fun y => y.signalOpt w.sig)
      else .next s
    | _ => .next s
  | [] => .next s

/-! ### Landing (R291–R294, R296, R310) -/

/-- A message's ring length (R292). -/
def msgRingLen (m : PostMsg) : Nat := 64 * ceilDiv (16 + 32 * m.len.toNat) 64

/-- What decides a message's fate at a ring: its refusal, or none (R291). -/
def postFate (r : CircReg) (p : PostRing) (n : Nat) : Option (BitVec 3) :=
  if !r.en then some (if p.resetSeen then 3 else 2)
  else if p.parked then some 1
  else if r.advance r.head 64 - 64 + n > r.bytes - r.occ then some 1
  else none

/-- The descriptor after `n` bytes have landed, and the offset at which they start (R292, R95). -/
def CircReg.land (r : CircReg) (n : Nat) : Nat × CircReg :=
  let p := r.align r.head 64
  let adv := r.advance r.head 64 - 64 + n
  (p, { r with head := (p + n) % r.bytes, full := decide (r.occ + adv = r.bytes) })

/-- Write an entry from where its landing stands, in at most `n` post write slots: to the end of a 64-byte block with zero padding
outside an exchange, 32 bytes during one. With the state, the bytes that have landed (R292). -/
def State.landSlots : Nat → State → TileId → Bool → CircReg → Nat → List Byte → Nat → State × Nat
  | 0, s, _, _, _, _, _, done => (s, done)
  | n + 1, s, t, c, r, start, l, done =>
    if done ≥ l.length then (s, done)
    else
      let u := if s.onExchangeClock t then 32 else 64 - done % 64
      let s := s.spWrite t ((s.tile t).phys c (r.baseAddr + (start + done) % r.bytes)) (sliceBytes l done u)
      State.landSlots n s t c r start l (done + u)

/-- The post write slots that the longest entry takes (R292). -/
def maxSlots : Nat := 9

/-- Mark the 8-byte words of an entry's bytes from `off` on as poisoned (R101, R296, R310). -/
def State.poisonEntry (s : State) (t : TileId) (c : Bool) (r : CircReg) (start off n : Nat) : State :=
  s.each ((List.range (n / 8)).map fun i => (start + off + 8 * i) % r.bytes) fun s o =>
    s.modTile t fun x => x.markWords (x.phys c (r.baseAddr + o)) 8 .uncorrectable

/-- Count a landing in a ring's shadow (R294). -/
def PostRing.landed (p : PostRing) (wptr : Nat) : PostRing := { p with count := p.count + 1, wptr := wptr }
/-- Count a refusal in a ring's shadow (R294). -/
def PostRing.dropped (p : PostRing) : PostRing := { p with drops := satInc p.drops }

/-- The post engine of a tile whose cluster or region stage is off takes no grant (R390). -/
def State.postOff (s : State) (t : TileId) : Bool := !s.domainOn (domainOf t) || !s.domainOn (144 + regionOf t)

/-- A message has reached the post engine of its tile: every arbiter has granted it (R290), or those that have not are off. -/
def State.postReached (s : State) (e : PlaneMsg) : Bool :=
  e.path.isEmpty || (s.postOff e.msg.dest && e.path.all fun h => decide (h.cls = 1) || decide (h.cls = 3))

/-- A message has left the plane: it holds no lane any more (R304). -/
def State.leavePlane (s : State) (m : PostMsg) : State :=
  { s with post := { s.post with msgs := eraseFirst (fun e => e.msg = m) s.post.msgs } }.dropLanes
    fun r => decide (r.item = some (msgKey m))

/-- A landing whose last unit has landed: the words that did not come or failed their check are poisoned, the header tells it, and then
the status word is written (R294, R296, R310). -/
def State.landed (s : State) (l : Landing) : State :=
  let m := l.msg.msg
  let t := m.dest
  let c := m.destCtx
  let k := bits m.tag.toNat 13 3
  let r := (s.ctx t c).cr (8 + k)
  let n := 32 * m.len.toNat
  let s := match m.cut with
    | some b =>
      let s := s.poisonEntry t c r l.start (16 + b / 8 * 8) (n - b / 8 * 8)
      s.spWrite t ((s.tile t).phys c (r.baseAddr + l.start % r.bytes)) (sliceBytes (msgHeader m true) 0 8)
    | none => s
  let s := if m.poisoned then s.poisonEntry t c r l.start 16 n else s
  let wptr := (l.start + msgRingLen m) % r.bytes
  let s := (s.modCtx t c fun y => y.setRing k ((y.ring k).landed wptr)).statusUpdate t c k
  let s := { s with post := { s.post with landing := s.post.landing.filter fun q => q.msg.msg.dest ≠ t } }
  let s := s.dropLanes fun q => decide (q.item = some (msgKey m))
  let s := s.tracePost t c m.tag [(12, 1), (13, k), (14, m.tag.toNat), (16, m.seq.toNat), (20, tileAddr m.srcDev m.src m.srcCtx)]
  if m.cut.isSome then s else s.answerPost m (l.msg.txid.getD 0) none

/-- A landing goes on for some post write slots, or to its end (R292). A cut message has no more to land than what came. -/
def State.landMore (s : State) (l : Landing) (slots : Option Nat) : State :=
  let m := l.msg.msg
  let r := (s.ctx m.dest m.destCtx).cr (8 + bits m.tag.toNat 13 3)
  let all := msgHeader m m.poisoned ++ msgBytes m
  let bytes := match m.cut with
    | some b => all.take (16 + b)
    | none => all
  let q := s.landSlots (min maxSlots (slots.getD maxSlots)) m.dest m.destCtx r l.start bytes l.done
  let l := { l with done := q.2 }
  if q.2 < bytes.length then
    { q.1 with post := { q.1.post with
        landing := updateWhere (fun e => decide (e.msg.msg.dest = m.dest)) (fun _ => l) q.1.post.landing } }
  else q.1.landed l

/-- A message is refused (R291, R294, R295): a FULL is counted; one that was cut short is discarded without a NACK (R310). -/
def State.refusePost (s : State) (m : PostMsg) (txid : BitVec 32) (reason : BitVec 3) : State :=
  let k := bits m.tag.toNat 13 3
  let s := if reason = 1 then
      (s.modCtx m.dest m.destCtx fun y => y.setRing k (y.ring k).dropped).statusUpdate m.dest m.destCtx k
    else s
  let s := s.tracePost m.dest m.destCtx m.tag [(12, 2), (13, reason.toNat), (14, m.tag.toNat), (16, m.seq.toNat),
    (20, tileAddr m.srcDev m.src m.srcCtx)]
  if m.cut.isSome then s else s.answerPost m txid (some reason)

/-- POST_MESSAGE_ARRIVE: the next message of a tile's post engine is decided, and one that is accepted lands, as far as the post write
slots of this event go, or whole; with a landing under way, that landing goes on (R290–R292, R296, R310). -/
def execPostMessageArrive (m : PostMsg) (slots : Option Nat) (s : State) : Res :=
  let t := m.dest
  let c := m.destCtx
  match s.post.landing.find? fun l => decide (l.msg.msg.dest = t) with
  | some l => if l.msg.msg = m then .next (s.landMore l slots) else .next s
  | none =>
    match s.post.msgs.find? fun e => decide (e.msg.dest = t) && s.isOwn e.msg.destDev && s.postReached e with
    | none => .next s
    | some e =>
      let tx := e.txid.getD 0
      if e.msg ≠ m then .next s
      else if ¬ s.validTile t then .next ((s.leavePlane m).answerPost m tx (some 4))
      else if s.postOff t then
        let s := s.leavePlane m
        .next (if m.cut.isSome then s else s.answerPost m tx (some 2))
      else
        let k := bits m.tag.toNat 13 3
        let y := s.ctx t c
        let r := y.cr (8 + k)
        match postFate r (y.ring k) (msgRingLen m) with
        | some reason => .next ((s.leavePlane m).refusePost m tx reason)
        | none =>
          let q := r.land (msgRingLen m)
          let l : Landing := { msg := e, start := q.1, done := 0 }
          let s := s.modCtx t c fun y => y.setCr (8 + k) q.2
          let s := { s with post := { s.post with msgs := eraseFirst (fun e => e.msg = m) s.post.msgs
                                                  landing := s.post.landing ++ [l] } }
          .next (s.landMore l (slots.map (max 1)))

/-! ### NACK records (R298) -/

/-- Two refusals have one sending context and one destination tile: their records land in the order of the sends (R301). -/
def sameWay (a b : NackMsg) : Bool :=
  decide (a.src = b.src) && decide (a.srcCtx = b.srcCtx) && decide (a.destWord.extractLsb' 0 27 = b.destWord.extractLsb' 0 27)

/-- NACK_RECORD_ARRIVE: a refusal, the first on its way, is written into its sender's NACK ring, or discarded and counted (R298,
R301). -/
def execNackRecordArrive (n : NackMsg) (s : State) : Res :=
  let t := n.src
  let c := n.srcCtx
  if s.post.nacks.find? (sameWay n) ≠ some n ∨ ¬ s.validTile t then .next s
  else
    let s := { s with post := { s.post with nacks := eraseFirst (fun e => e = n) s.post.nacks } }
    let y := s.ctx t c
    let r := y.cr 7
    match postFate r (y.ring 8) 64 with
    | some _ => .next ((s.modCtx t c fun y => y.setRing 8 (y.ring 8).dropped).statusUpdate t c 8)
    | none =>
      let l := r.land 64
      let rec16 := leBytes 4 n.destWord.toNat ++ [n.reason.zeroExtend 8, 0] ++ leBytes 2 n.tag.toNat ++
        leBytes 4 n.seq.toNat ++ leBytes 4 s.time.toNat
      let s := s.modCtx t c fun y => y.setCr 7 l.2
      let s := (s.landSlots 1 t c l.2 l.1 rec16 0).1
      let s := (s.modCtx t c fun y => y.setRing 8 ((y.ring 8).landed l.2.head)).statusUpdate t c 8
      .next (s.tracePost t c n.tag [(12, 3), (13, n.reason.toNat), (14, n.tag.toNat), (16, n.seq.toNat),
        (20, n.destWord.toNat % 2 ^ 28)])

/-! ### Remote acceptance, refusal and timeout (R295, R364, R365) -/

/-- An outstanding record is the one an answer names. -/
def PostOut.isFor (r : PostOut) (src : TileId) (c : Bool) (seq : BitVec 32) : Bool :=
  decide (r.src = src) && decide (r.srcCtx = c) && decide (r.seq = seq)

/-- The NACK of an outstanding message. -/
def PostOut.nack (r : PostOut) (reason : BitVec 3) : NackMsg :=
  { src := r.src, srcCtx := r.srcCtx, destWord := r.destWord, reason := reason, tag := r.tag, seq := r.seq }

/-- Close an outstanding record, with a NACK where there is a reason. -/
def State.closePost (s : State) (r : PostOut) (reason : Option (BitVec 3)) : State :=
  let s := { s with fabric := { s.fabric with postOut := eraseFirst (fun q => q = r) s.fabric.postOut } }
  match reason with
  | some k => s.pushNack (r.nack k)
  | none => s

/-- POSTACK_RECEIVE: the answer to a remote message closes its record, or is discarded as late (R295, R365). -/
def execPostackReceive (a : PostAck) (s : State) : Res :=
  let s := { s with post := { s.post with acks := eraseFirst (fun e => e = a) s.post.acks } }
  match s.fabric.postOut.find? fun r => r.isFor a.src a.srcCtx a.seq with
  | some r => .next (s.closePost r a.reason)
  | none => .next s.lateResponse

/-- POST_TIMEOUT: a remote message has drawn neither acceptance nor NACK within the post timeout (R295, R364). -/
def execPostTimeout (src : TileId) (ctx : Bool) (seq : BitVec 32) (s : State) : Res :=
  match s.fabric.postOut.find? fun r => r.isFor src ctx seq with
  | some r => .next (s.countTimeout.closePost r (some 5))
  | none => .next s

end Sys2Proof.Machine
end

