-- ==== Sys2Proof/Machine/Arb.lean ====
section
/-! DEFINITION. The arbiters (R303–R311): the grant decision, the age stamps, the commit of priority maps, and the host's hold of the
management bus. -/

namespace Sys2Proof.Machine

/-! ### Classes (R303, R305) -/

/-- Physical requesters I_c of a class (R303). -/
def arbInputs (cls : Nat) : Nat :=
  match cls with
  | 0 => 32
  | 1 => 33
  | 2 => 9
  | 3 => 10
  | 4 => 48
  | 5 => 289
  | 6 => 49
  | 7 => 50
  | 8 => 7
  | _ => 0

/-- Instances of a class (R303). -/
def arbInstances (cls : Nat) : Nat :=
  match cls with
  | 0 | 3 => 144
  | 1 => 2304
  | 2 | 5 => 16
  | 4 => 17
  | 6 => 32
  | 7 => 256
  | 8 => 1
  | _ => 0

/-- Lanes of a class (R305). -/
def arbLanes (cls : Nat) : Nat := if cls = 2 then 2 else if cls = 5 then 12 else 1

/-- A priority map's entry, the requester's own number by default (R303). -/
def mapOf (m : List (Nat × BitVec 9)) (cls i : Nat) : Nat := (SMap.get (BitVec.ofNat 9 i) m (512 * cls + i)).toNat
def mapPut (m : List (Nat × BitVec 9)) (cls i : Nat) (v : BitVec 9) : List (Nat × BitVec 9) :=
  SMap.put (BitVec.ofNat 9 i) m (512 * cls + i) v

/-- N and the map by which an instance ranks: the committed copy once it has adopted it (R308). -/
def Arb.nOf (a : Arb) (cls : Nat) (x : ArbInst) : Nat :=
  (SMap.get 8 (if a.busy && !x.adopt then a.nPending else a.nActive) cls).toNat
def Arb.numOf (a : Arb) (cls : Nat) (x : ArbInst) (i : Nat) : Nat :=
  mapOf (if a.busy && !x.adopt then a.mapPending else a.mapActive) cls i

/-! ### The grant decision (R306, R307) -/

/-- The age of a request (R306). -/
def Arb.age (a : Arb) (r : ArbReq) : Nat := if r.old then 0x10000 else (a.ageNow - r.stamp).toNat

/-- The head requests of the inputs that hold no lane. -/
def ArbInst.requesting (x : ArbInst) : List ArbReq :=
  let heads := x.reqs.foldl (fun l r => if l.any (fun q : ArbReq => q.input = r.input) then l else l ++ [r]) []
  heads.filter fun r => !x.owners.any fun o => o.2.input = r.input

/-- The better of two heads: by age and then by input number in a reserved grant, by input number otherwise (R307). -/
def Arb.better (a : Arb) (cls : Nat) (x : ArbInst) (reserved : Bool) (p q : ArbReq) : ArbReq :=
  let np := a.numOf cls x p.input
  let nq := a.numOf cls x q.input
  if reserved then
    if a.age p > a.age q ∨ (a.age p = a.age q ∧ np ≥ nq) then p else q
  else if np ≥ nq then p else q

/-- The winner of one decision, if any input requests. -/
def Arb.winner (a : Arb) (cls : Nat) (x : ArbInst) : Option ArbReq :=
  match x.requesting with
  | [] => none
  | r :: rest => some (rest.foldl (a.better cls x (decide (x.gcount + 1 = a.nOf cls x))) r)

/-- One decision for one free lane (R305, R307). -/
def Arb.decideLane (a : Arb) (cls : Nat) (x : ArbInst) (lane : Nat) : ArbInst :=
  if x.owners.any fun o => o.1 = lane then x
  else match a.winner cls x with
    | some w =>
      { x with owners := x.owners ++ [(lane, w)], reqs := eraseFirst (fun r => r = w) x.reqs,
               gcount := (x.gcount + 1) % max 1 (a.nOf cls x) }
    | none => x

/-- An input of a class at which requests are made that no arbiter of this device has met before (R306). -/
def firstRequest (cls input : Nat) : Bool :=
  match cls with
  | 0 | 5 | 8 => true
  | 1 => decide (input < 32)
  | 4 | 6 => decide (16 ≤ input)
  | 7 => (decide (16 ≤ input) && decide (input < 48)) || decide (input = 49)
  | _ => false

/-- A request is presented. At the first arbiter it takes AGE_NOW as its stamp; at a later one it carries its stamp and its OLD bit. A
request of classes 0 to 4 is the next message that has come to that input; while all outstanding records are in use or asked for,
the chip stage accepts no further remote one (R295, R304, R306). -/
def State.raise (s : State) (cls inst : Nat) (r : ArbReq) : State :=
  let new := firstRequest cls r.input
  let x := s.arbInst cls inst
  if r.cls ≠ cls ∨ r.inst ≠ inst ∨ r.input ≥ arbInputs cls then s
  else if cls ≤ 4 then
    match s.post.msgs.find? fun e => decide (e.path.head? = some ⟨cls, inst, r.input⟩) &&
        !x.reqs.any fun q => decide (q.item = some (msgKey e.msg)) with
    | some e =>
      let full := decide (cls = 4) && decide (inst = 16) && decide (s.fabric.postOut.length + x.reqs.length ≥ 8192)
      if r.item ≠ some (msgKey e.msg) ∨ full = true then s
      else
        let q := { r with stamp := if new then s.arb.ageNow else e.stamp, old := e.old }
        (s.modPlane (msgKey e.msg) fun e => { e with stamp := q.stamp }).modArbInst cls inst fun x => { x with reqs := x.reqs ++ [q] }
    | none => s
  else
    let q := { r with stamp := if new then s.arb.ageNow else r.stamp, old := !new && r.old, item := none }
    s.modArbInst cls inst fun x => { x with reqs := x.reqs ++ [q] }

/-- A message that has won a grant goes on to its next arbiter, behind those that came to it before; at the chip stage's path to the
fabric it becomes a packet (R290, R295). -/
def State.passOn (s : State) (r : ArbReq) : State :=
  match r.item with
  | none => s
  | some k =>
    match s.post.msgs.find? fun e => decide (msgKey e.msg = k) with
    | none => s
    | some e =>
      if r.cls = 4 ∧ r.inst = 16 then s.toFabric e.msg e.stamp
      else
        let rest := eraseFirst (fun q => q = e) s.post.msgs
        { s with post := { s.post with msgs := rest ++ [{ e with path := e.path.tail, old := r.old }] } }

/-- The last unit of an owner's transfer may have passed: a message's at the delivery into its tile passes as it lands (R304). -/
def mayDrop (r : ArbReq) : Bool := !(decide (r.cls = 1) && r.item.isSome)

/-- ARBITER_GRANT: one grant boundary of an instance. The owners of the dropped lanes release them, the new requests are
presented with their stamps, the pending copy is adopted, and each free lane is granted in increasing order (R304, R305,
R307, R308). While the host or the debug port holds the management bus, class 8 takes no decision (R311). -/
def execArbiterGrant (cls inst : Nat) (raised : List ArbReq) (dropped : List Nat) (s : State) : Res :=
  if inst < arbInstances cls then
    let s := s.each raised fun s r => s.raise cls inst r
    let x := s.arbInst cls inst
    let x := { x with owners := x.owners.filter fun o => !(dropped.contains o.1 && mayDrop o.2) }
    let free := decide (x.owners.length < arbLanes cls)
    let x := if free then x.adoptNow else x
    let a := s.arb
    let y := if cls = 8 ∧ s.busHeld = true then x else (List.range (arbLanes cls)).foldl (fun x l => a.decideLane cls x l) x
    let won := y.owners.filter fun o => !x.owners.contains o
    let s := s.modArbInst cls inst fun _ => y
    .next (s.each won fun s o => s.passOn o.2).commitDone
  else .next s

/-- AGE_TICK: AGE_NOW increments (R306). -/
def execAgeTick (s : State) : Res := .next { s with arb := { s.arb with ageNow := s.arb.ageNow + 1 } }

/-- AGE_OLD_MARK: the head request of an input whose age has reached 0x8000 takes its OLD bit (R306). -/
def execAgeOldMark (cls inst input : Nat) (s : State) : Res :=
  let a := s.arb
  let hit (r : ArbReq) : Bool := decide (r.input = input) && decide (a.age r ≥ 0x8000)
  .next (s.modArbInst cls inst fun x => { x with reqs := updateWhere hit (fun r => { r with old := true }) x.reqs })

/-! ### The commit (R308) -/

/-- A class whose shadows fail the checks (R308). -/
def Arb.badShadow (a : Arb) (cls : Nat) : Bool :=
  let n := (SMap.get 8 a.nShadow cls).toNat
  let l := (List.range (arbInputs cls)).map (mapOf a.mapShadow cls)
  decide (n < 2) || decide (n > 64) || (List.range (arbInputs cls)).any fun k => !l.contains k

/-- A GO: refused while BUSY, bad when a check fails, otherwise the shadows become pending and idle instances adopt them
(R308; assumption 14). -/
def State.arbCommit (s : State) : State :=
  if s.arb.busy then { s with arb := { s.arb with refused := true } }
  else match (List.range 9).find? s.arb.badShadow with
    | some c => { s with arb := { s.arb with bad := true, badClass := BitVec.ofNat 4 c } }
    | none =>
      let insts := s.arb.insts.map fun e => (e.1, { e.2 with adopt := decide (e.2.owners ≠ []), gcount := if e.2.owners ≠ [] then e.2.gcount else 0 })
      let insts := insts.filter fun e => e.2 ≠ ArbInst.reset
      { s with arb := { s.arb with busy := true, commits := s.arb.commits + 1, nPending := s.arb.nShadow,
                                   mapPending := s.arb.mapShadow, insts := insts } }.commitDone

/-- ARB_COMMIT: a write of the commit register (R308). -/
def execArbCommit (v : Word32) (s : State) : Res := .next (if v.getLsbD 0 then s.arbCommit else s)

/-- WAIT_CLASS: the lowest class not yet adopted everywhere. -/
def Arb.waitClass (a : Arb) : Nat :=
  if a.busy then ((a.insts.filter fun e => e.2.adopt).head?.map fun e => e.1 / 4096).getD 0 else 0

/-! ### The host's hold of the management bus (R311) -/

/-- The host's hold is granted unless the debug port holds the bus. -/
def State.grantHold (s : State) : State :=
  { s with arb := { s.arb with granted := s.arb.hold && !s.dbg.tapHold } }

/-- ARB_MGMT_HOLD: a write takes or releases the hold (R311). -/
def execArbMgmtHold (v : Word32) (s : State) : Res :=
  let s := { s with arb := { s.arb with hold := v.getLsbD 0, holdAbandoned := s.arb.holdAbandoned && !v.getLsbD 2 } }
  .next s.grantHold

end Sys2Proof.Machine
end

