-- ==== Sys2Proof/Machine/Exchange.lean ====
section
/-! DEFINITION. The barrier's arrivals (R192, R245, R263), the compiled exchange (R230–R233, R266–R286) and the end decision
(R247, R248, R254–R262). -/

namespace Sys2Proof.Machine

/-! ### XRUN and the arrival (R230, R245, R246, R263) -/

/-- XRUN is queued for the exchange that follows the next SYNC of its context (R230); WV must be 0. -/
def execXrun (t : TileId) (w : WaitSig) (ra rl : RegNo) (s : State) : Res :=
  s.issueEng t 4 (.xrun t w ra rl) [ra, rl]

/-- Every earlier stream operation of the context has reached its completion point (R249, R340). -/
def Ctx.remoteQuiet (y : Ctx) : Bool := y.stream.isEmpty

/-- The sync-zone mismatch fault of an arrival (R263). -/
def State.syncMismatch (s : State) (t : TileId) (c : Bool) (f g : SyncFields) : State :=
  let y := s.ctx t c
  s.terminate t c 0x0107
    (detail [(32, y.zone.toNat), (36, y.supersteps.toNat), (40, f.phase.toNat), (41, syncFlags f), (42, g.phase.toNat),
      (43, syncFlags g)])

/-- The arrival of a context at its zone's root, with its fields and its L (R245). -/
def State.arriveAt (s : State) (t : TileId) (c : Bool) (f : SyncFields) : State :=
  let z := (s.ctx t c).zone
  let zn := s.zone z
  let len := (s.tile t).xchLen c
  let s := (s.modCtx t c fun y => { y with gate := .barrier, pc := y.pc + 8 }).countStep t c
  let s := s.trace t c 2 [(12, 0), (13, z.toNat), (14, f.phase.toNat), (15, syncFlags f), (16, len),
    (20, (s.ctx t c).supersteps.toNat)]
  let g := zn.first.getD f
  if f ≠ g ∨ (f.ext ∧ (s.xgroup z).enabled = false) then s.syncMismatch t c f g
  else
    (s.modZone z fun x => { x with first := some g, arrived := x.arrived ++ [t], lz := max x.lz len }).checkBarrier z

/-- SYNC_ARRIVAL: the SYNC that waits in D reports its arrival (R192, R246); an EXT arrival waits for the
acknowledgement of earlier remote writes (R249). -/
def execSyncArrival (t : TileId) (s : State) : Res :=
  match s.issuer t fun g => match g with
    | .arrive _ => true
    | _ => false with
  | some c =>
    match (s.ctx t c).gate with
    | .arrive f => .next (if f.ext && !(s.ctx t c).remoteQuiet then s else s.arriveAt t c f)
    | _ => .next s
  | none => .next s

/-! ### Lanes (R267–R274) -/

/-- The class of a lane: 0 cluster, 1 region, 2 near, 3 far (R267). -/
def laneClass (lane : Nat) : Nat := if lane < 16 then 0 else if lane < 48 then 1 else if lane < 78 then 2 else 3

/-- Whether a lane's class reaches from one tile to another (R269). -/
def laneReach (lane : Nat) (src dst : TileId) : Bool :=
  match laneClass lane with
  | 0 => decide (clusterOf src = clusterOf dst)
  | 1 => decide (regionOf src = regionOf dst)
  | 2 => decide (dieOf src = dieOf dst) && decide (regionOf src ≠ regionOf dst)
  | _ => decide (dieOf src ≠ dieOf dst)

/-- |a − b|. -/
def absDiff (a b : Nat) : Nat := a - b + (b - a)

/-- The latency λ between two package regions on a lane (R272, R273). -/
def laneLatency (lane src dst : Nat) : Nat :=
  let r (g : Nat) : Nat := g % 8 / 4
  let c (g : Nat) : Nat := g % 4
  match laneClass lane with
  | 0 => 8
  | 1 => 16
  | 2 => 17 + 3 * absDiff (c src) (c dst) + 8 * absDiff (r src) (r dst)
  | _ => 20 + 17 + 3 * absDiff (c src) (c dst) + 8 * (r src + r dst)

/-- The instance of a lane at a receiver: its cluster for a cluster lane, its region otherwise (R267). -/
def laneInst (lane : Nat) (dst : TileId) : Nat := if laneClass lane = 0 then clusterOf dst else regionOf dst

/-- A zone holds a lane in a region (R271). -/
def Zone.granted (z : Zone) (lane region : Nat) : Bool := z.lanes.contains region && z.laneMask.getLsbD lane

/-- The receivers of an RSET, none where its multicast index is beyond the zone's sets: the masks of the tables that hold them
(R231, R270). -/
def State.receivers (s : State) (z : BitVec 3) (rset : Nat) : Option (List TileId) :=
  let zn := s.zone z
  let i := bits rset 0 12
  if rset.testBit 12 then
    if i < zn.mcCount then
      some (zn.mcRegions.flatMap fun g =>
        let m := SMap.get 0 (s.region g).mcast (zn.mcBase + i)
        ((List.range 144).filter fun b => m.getLsbD b).map fun b => BitVec.ofNat 12 (256 * g + b))
    else none
  else some [BitVec.ofNat 12 i]

/-- A tile has a loaded context of the zone. -/
def State.inZone (s : State) (t : TileId) (z : BitVec 3) : Bool :=
  s.validTile t && ((s.ctx t false).member z || (s.ctx t true).member z)

/-! ### The word list (R231, R232) -/

/-- The next word of a list, as the engine takes it: the list ends, a word breaks a rule, its fetch is uncorrectable or
lies beyond the partition, a send, a receive. -/
inductive XWord where
  | finish
  | bad
  | ue (word : Nat)
  | outside
  | send (cycle lane addr : Nat) (dests : List TileId)
  | recv (cycle lane addr : Nat)
deriving DecidableEq, Repr

/-- Relative address of the next word. -/
def XchRun.wordAddr (r : XchRun) : Nat := r.list + 8 * r.idx

/-- Rules 1 to 3 of R232, against the words performed. -/
def XchRun.inOrder (r : XchRun) (cycle : Nat) (recv : Bool) : Bool :=
  decide (4 ≤ cycle) && decide (r.last.getD 0 ≤ cycle) &&
    decide ((if recv then r.lastRecv else r.lastSend) ≠ some cycle)

/-- The next word as the engine took it into its buffer, with the uncorrectable word that the fetch found (R233). -/
def Tile.xNext (x : Tile) (r : XchRun) : Nat × Option Nat :=
  match r.buf with
  | w :: _ => w
  | [] => let a := x.phys r.ctx r.wordAddr; (leNat (x.read a 8), x.badWord a 8)

/-- The 8 bytes of the next word. -/
def Tile.xBits (x : Tile) (r : XchRun) : Nat := (x.xNext r).1

/-- What the next word of a tile's list is (R231, R232, R269). -/
def State.xWord (s : State) (t : TileId) (r : XchRun) : XWord :=
  let x := s.tile t
  let z := (x.ctx r.ctx).zone
  if r.finished || decide (r.idx ≥ 8 * r.len) then .finish
  else if ¬ x.inPart r.ctx r.wordAddr 8 then .outside
  else match (x.xNext r).2 with
    | some w => .ue w
    | none =>
      let w := x.xBits r
      let cycle := bits w 42 20
      let lane := bits w 35 7
      let addr := bits w 19 16 * 32
      match bits w 62 2 with
      | 2 => if bits w 0 62 = 0 then .finish else .bad
      | 0 =>
        if cycle ≥ r.len then .finish
        else if bits w 0 6 ≠ 0 || !r.inOrder cycle false then .bad
        else match s.receivers z (bits w 6 13) with
          | some l =>
            if l.all (fun d => s.inZone d z && laneReach lane t d && (s.zone z).granted lane (regionOf d)) then
              .send cycle lane addr l
            else .bad
          | none => .bad
      | 1 =>
        if cycle ≥ r.len then .finish
        else if bits w 0 19 ≠ 0 || !r.inOrder cycle true || !(s.zone z).granted lane (regionOf t) then .bad
        else .recv cycle lane addr
      | _ => .bad

/-- The cycle by which words of a zone's lists are performed: a word that is not performed has none. -/
def XWord.key : XWord → Nat
  | .send c _ _ _ => c
  | .recv c _ _ => c
  | _ => 0

def XWord.isFinish : XWord → Bool
  | .finish => true
  | _ => false

/-- The next word of an arrived tile, if its list has one. -/
def State.nextXWord (s : State) (t : TileId) : XWord :=
  match (s.tile t).xch with
  | some r => s.xWord t r
  | none => .finish

/-- A word may be performed: the exchange runs, and no arrived tile has an earlier word. -/
def State.xTurn (s : State) (t : TileId) (z : BitVec 3) (w : XWord) : Bool :=
  decide ((s.zone z).bar = .exchanging) && s.tileRuns t &&
    (s.zone z).arrived.all fun o =>
      let v := s.nextXWord o
      v.isFinish || decide (w.key ≤ v.key)

/-! ### Faults of an exchange (R76, R285) -/

/-- Record an exchange fault of a context at the xc in which it occurs. Causes: 0 COLLISION, 1 MISS, 2 ILLEGAL_WORD,
3 PARTITION. -/
def State.xFault (s : State) (t : TileId) (c : Bool) (cause cycle lane addr : Nat) : State :=
  let y := s.ctx t c
  let s := s.modCtx t c fun y =>
    { y with xfault := match y.xfault with
        | some f => some { f with further := min 255 (f.further + 1) }
        | none => some { code := 0x0103 + cause, cycle := cycle, lane := lane, addr := addr, further := 0 } }
  s.trace t c 3 [(12, cause), (13, lane), (16, cycle), (20, addr), (24, y.supersteps.toNat)]

/-- Write a received word, poisoned as its lane says; what it wrote over stays at hand for the sends and fetches that fall before the
write (R275, R286). -/
def Tile.xWrite (x : Tile) (r : XchRun) (cycle addr : Nat) (data : BitVec 256) (poison : Bool) : Tile :=
  let a := x.phys r.ctx addr
  let u := (cycle, addr, BitVec.ofNat 256 (leNat (x.read a 32)), (wordsOf a 32).map x.wordErr)
  let x := x.write a (leBytes 32 data.toNat)
  let x := if poison then x.markWords a 32 .poisoned else x
  { x with xch := some { r with undo := u :: r.undo.filter fun v => decide (cycle ≤ v.1 + 3) } }

/-- Note the uncorrectable word that stops the context at the end of the exchange (R100). -/
def State.noteXue (s : State) (t : TileId) (c : Bool) (word reader : Nat) : State :=
  s.modCtx t c fun y => { y with xue := y.xue <|> some (word, reader) }

/-! ### Sends and receives (R268, R275, R283, R284) -/

/-- Put a word on a track instance; a second word there in the same xc makes a collision (R268). -/
def State.drive (s : State) (w : TrackWord) : State :=
  let same (v : TrackWord) : Bool :=
    decide (v.zone = w.zone) && decide (v.inst = w.inst) && decide (v.lane = w.lane) && decide (v.cycle = w.cycle)
  if s.tracks.any same then { s with tracks := updateWhere same (fun v => { v with collide := true }) s.tracks }
  else { s with tracks := s.tracks ++ [w] }

/-- The distinct elements of a list, in order. -/
def dedupNat : List Nat → List Nat
  | [] => []
  | a :: r => a :: (dedupNat r).filter fun b => b ≠ a

/-- A send: the 32 bytes as they stand at cycle c − 2, on the lane's instance of each receiver (R268, R269, R275, R280). -/
def State.xSend (s : State) (t : TileId) (r : XchRun) (cycle lane addr : Nat) (dests : List TileId) : State :=
  let x := (s.tile t).asOf r (cycle - 2)
  let z := (x.ctx r.ctx).zone
  let a := x.phys r.ctx addr
  let bad := x.badWord a 32
  let s := match bad with
    | some w => s.noteXue t r.ctx w 6
    | none => s.countCe t (x.singles a 32)
  let data := BitVec.ofNat 256 (leNat (x.read a 32))
  let src := regionOf t
  let go (s : State) (i : Nat) : State :=
    let mine := dests.filter fun d => laneInst lane d = i
    match mine with
    | d :: _ =>
      let g := regionOf d
      let slipped := decide (2 ≤ laneClass lane) && ((s.region g).crossing src).slipped
      s.drive
        { zone := z, src := src, inst := i, lane := lane, cycle := cycle + laneLatency lane src g, data := data,
          poison := bad.isSome || slipped, collide := false, rset := dests, heard := false }
    | [] => s
  (dedupNat (dests.map (laneInst lane))).foldl go s

/-- Move past a word that was performed. -/
def XchRun.performed (r : XchRun) (cycle : Nat) (recv : Bool) : XchRun :=
  { r with idx := r.idx + 1, buf := r.buf.drop 1, last := some cycle, lastSend := if recv then r.lastSend else some cycle,
           lastRecv := if recv then some cycle else r.lastRecv }

/-- Move past a suppressed word (R232). -/
def XchRun.suppressed (r : XchRun) : XchRun := { r with idx := r.idx + 1, buf := r.buf.drop 1 }

/-- A receive latches its lane at its cycle: a collision or a miss, which suppresses it, or a word written in the next xc (R76, R275,
R283, R284). -/
def State.xRecv (s : State) (t : TileId) (r : XchRun) (cycle lane addr : Nat) : State :=
  let z := (s.ctx t r.ctx).zone
  let here (v : TrackWord) : Bool :=
    decide (v.zone = z) && decide (v.inst = laneInst lane t) && decide (v.lane = lane) && decide (v.cycle = cycle)
  match s.tracks.find? here with
  | some v =>
    let s := { s with tracks := updateWhere here (fun v => { v with heard := true }) s.tracks }
    if v.collide then (s.xFault t r.ctx 0 cycle lane r.wordAddr).modRun t XchRun.suppressed
    else if v.rset.contains t then s.modTile t fun x => x.xWrite (r.performed cycle true) cycle addr v.data v.poison
    else (s.xFault t r.ctx 1 cycle lane r.wordAddr).modRun t XchRun.suppressed
  | none => (s.xFault t r.ctx 1 cycle lane r.wordAddr).modRun t XchRun.suppressed

/-- The access of an exchange word lies in the partition (R72). -/
def Tile.xInside (x : Tile) (c : Bool) (addr : Nat) : Bool := x.inPart c addr 32

/-- The engine goes on with its list after a word: the buffer takes what the exchange has time for (R233). -/
def State.xNextFill (s : State) (t : TileId) (cycle : Nat) : State := s.xFill t cycle 4

/-- EXCHANGE_SEND: the tile's engine performs its next word where that is a send or a word that is suppressed (R76, R100,
R232, R275). -/
def execExchangeSend (t : TileId) (s : State) : Res :=
  match (s.tile t).xch with
  | some r =>
    let z := (s.ctx t r.ctx).zone
    let w := s.xWord t r
    let raw := (s.tile t).xBits r
    if s.xTurn t z w then
      match w with
      | .send cycle lane addr dests =>
        if (s.tile t).xInside r.ctx addr then
          .next (((s.xSend t r cycle lane addr dests).modRun t fun r => r.performed cycle false).xNextFill t cycle)
        else .next (((s.xFault t r.ctx 3 cycle lane r.wordAddr).modRun t XchRun.suppressed).xNextFill t cycle)
      | .bad =>
        .next (((s.xFault t r.ctx 2 (bits raw 42 20) (bits raw 35 7) r.wordAddr).modRun t XchRun.suppressed).xNextFill t
          (r.last.getD 4))
      | .ue w => .next (((s.noteXue t r.ctx w 5).modRun t XchRun.suppressed).xNextFill t (r.last.getD 4))
      | .outside =>
        .next ((s.xFault t r.ctx 3 (r.last.getD 0) 0 r.wordAddr).modRun t fun r => { r with finished := true })
      | _ => .next s
    else .next s
  | none => .next s

/-- EXCHANGE_RECEIVE: the tile's engine performs its next word where that is a receive (R275, R283, R284). -/
def execExchangeReceive (t : TileId) (s : State) : Res :=
  match (s.tile t).xch with
  | some r =>
    let z := (s.ctx t r.ctx).zone
    let w := s.xWord t r
    if s.xTurn t z w then
      match w with
      | .recv cycle lane addr =>
        if (s.tile t).xInside r.ctx addr then .next ((s.xRecv t r cycle lane addr).xNextFill t cycle)
        else .next (((s.xFault t r.ctx 3 cycle lane r.wordAddr).modRun t XchRun.suppressed).xNextFill t cycle)
      | _ => .next s
    else .next s
  | none => .next s

/-! ### Scopes of a halt (R474) -/

/-- The contexts in a scope: 0 context, 1 tile, 2 cluster, 3 region, 4 package (R472, R474). -/
def State.scopeCtxs (s : State) (sc : DbgScope) : List (TileId × Bool) :=
  match sc.scope.toNat with
  | 0 => [(sc.tile, sc.ctx)]
  | 1 => bothCtx [sc.tile]
  | 2 => bothCtx (clusterTiles (clusterOf sc.tile))
  | 3 => bothCtx (s.regionTiles (regionOf sc.tile))
  | _ => bothCtx s.packageTiles

/-- A waiting HALT replies once the halt has taken effect on every ACTIVE context of its scope (R474). -/
def State.pumpHalts (s : State) : State :=
  s.each s.host.waits fun s w =>
    match w.kind with
    | .halt sc => if (s.scopeCtxs sc).all (fun m => !(s.ctx m.1 m.2).haltPend) then (s.unwait w).ok w.hdr w.opcode else s
    | _ => s

/-! ### The end decision (R247, R248, R254–R262) -/

/-- Every arrived tile's list has ended. -/
def State.exchangeOver (s : State) (z : BitVec 3) : Bool :=
  decide ((s.zone z).bar = .exchanging) && (s.zone z).arrived.all fun t => (s.nextXWord t).isFinish

/-- What the root decides for the zone (R248, R255): the zone has aborted, its pairing was ended by its host's abort, stop,
evict, a bubble, a guest's return with its reason, or continue. -/
inductive Decision where
  | aborted
  | orphaned
  | stop
  | evict (area : Nat)
  | bubble (g : BitVec 3)
  | toHost (h : BitVec 3) (reason : BitVec 3)
  | continue
deriving DecidableEq, Repr

/-- The first latched request that a test accepts and the barrier allows (R259). -/
def State.reqOf (s : State) (z : BitVec 3) (f : SyncFields) (p : ReqKind → Bool) : Option ZoneReq :=
  (s.zone z).reqs.find? fun r => s.applies z f r && p r.kind

def ReqKind.isStop : ReqKind → Bool
  | .stop => true
  | _ => false
def ReqKind.isYield : ReqKind → Bool
  | .yield => true
  | _ => false
def ReqKind.area? : ReqKind → Option Nat
  | .evict a => some a
  | _ => none

/-- A member of guest zone G is LOADED and started, so that a bubble may be taken (R254). -/
def State.guestReady (s : State) (g : BitVec 3) : Bool :=
  (s.zone g).started && !(s.zone g).aborted &&
    (s.members g).any fun m => decide ((s.ctx m.1 m.2).phase = .loaded) && (s.ctx m.1 m.2).started && !(s.ctx m.1 m.2).saving

/-- LAST_RETURN of a grouped guest that RELEASE returns: the yield point shows everywhere, a command or a budget only at the root;
elsewhere which of the two it was is a free value (R258, R379; assumption 89). -/
def State.returnReason (s : State) (x : XGroup) (f : SyncFields) (yieldReq : Bool) : BitVec 3 :=
  if yieldReq then 3
  else if f.yield then 2
  else if x.isRoot then 1
  else if s.freeBits 1 = 1 then 3 else 1

/-- The decision of a zone's root at an end decision. For an EXT barrier of a grouped zone the root's RELEASE carries the
requests and a guest's return; at its other barriers none is applied (R379). -/
def State.endChoice (s : State) (z : BitVec 3) : Decision :=
  let zn := s.zone z
  let f := zn.first.getD syncZero
  let x := s.xgroup z
  let grouped := x.enabled
  let carried (i : Nat) : Bool := f.ext && x.relFlags.getLsbD i
  let evictReq := s.reqOf z f fun k => k.area?.isSome
  let stop := if grouped then carried 2 else (s.reqOf z f ReqKind.isStop).isSome
  let evict := if grouped then carried 3 else evictReq.isSome
  let area := (evictReq.bind fun r => r.kind.area?).getD zn.evictArea
  let yieldReq := (s.reqOf z f ReqKind.isYield).isSome
  let yields := if grouped then carried 1 else yieldReq
  if zn.aborted then .aborted
  else if !zn.started then .orphaned
  else if stop then .stop
  else if evict then .evict area
  else match zn.role.toNat, zn.pair with
    | 2, some h =>
      if (s.zone h).bubble.isNone then .toHost h 4
      else if grouped then (if yields then .toHost h (s.returnReason x f yieldReq) else .continue)
      else if yieldReq then .toHost h 3
      else if f.yield then .toHost h 2
      else if s.budgetOut z then .toHost h 1
      else .continue
    | 1, some g => if (f.bubble || yields) && s.guestReady g then .bubble g else .continue
    | _, _ => .continue

/-- The code that a member tile receives (R248, R254). -/
def State.decisionCode (s : State) (d : Decision) (t : TileId) (c : Bool) : BitVec 3 :=
  match d with
  | .aborted => 3
  | .orphaned => 2
  | .stop => 3
  | .evict _ => 4
  | .bubble g => let o := s.ctx t (!c); if o.member g && decide (o.phase = .loaded) && !o.saving then 1 else 5
  | .toHost _ _ => 2
  | .continue => 0

/-- The other context takes the tile at a STOPPED or EVICT decision (R248). -/
def State.passes (s : State) (t : TileId) (c : Bool) : Bool :=
  let o := s.ctx t (!c)
  let z := s.zone o.zone
  decide (o.phase = .loaded) && z.started && o.started && !z.aborted && decide (z.role ≠ 2) && !o.saving

/-- The tile passes to its other context, or becomes vacant (R248). -/
def State.passOrVacate (s : State) (t : TileId) (c : Bool) : State := if s.passes t c then s.activate t (!c) else s

/-- A context gives its tile up and waits, LOADED. -/
def State.yieldTile (s : State) (t : TileId) (c : Bool) : State :=
  if (s.ctx t c).phase = .active then s.modCtx t c fun y => { y with phase := .loaded } else s

/-- A command whose request has been applied replies, unless it has replied TIMEOUT (R259, R422). -/
def State.replyReq (s : State) (r : ZoneReq) (result : Nat := 0) : State :=
  let op : BitVec 16 := match r.kind with
    | .stop => 0x0204
    | .yield => 0x0205
    | .evict _ => 0x0206
  if r.deadline.isSome then s.ok ⟨r.queue, r.seq, false, false, 0⟩ op result else s

/-- Remove the requests a test names and reply to their commands. -/
def State.applyReqs (s : State) (z : BitVec 3) (p : ReqKind → Bool) : State :=
  let f := (s.zone z).first.getD syncZero
  let hit (r : ZoneReq) : Bool := s.applies z f r && p r.kind
  let done := (s.zone z).reqs.filter hit
  let s := s.modZone z fun x => { x with reqs := x.reqs.filter fun r => !hit r }
  s.each done fun s r => s.replyReq r

/-- The exchange of one arrived context ends: its XRUN finishes, and T_SYNC_STAT records the
decision (R230, R242, R248). -/
def State.endOne (s : State) (z : BitVec 3) (d : Decision) (f : SyncFields) (lz : Nat) (t : TileId) (c : Bool) : State :=
  let code := s.decisionCode d t c
  let s := s.trace t c 2 [(12, 2), (13, z.toNat), (14, f.phase.toNat), (15, code.toNat), (16, lz),
    (20, (s.ctx t c).supersteps.toNat)]
  let sigs := ((s.tile t).xeng.running.filter fun o => o.ctx = c).map fun o => match o.ins with
    | .xrun _ w _ _ => w.sig
    | _ => none
  (s.modTile t fun x => { x with xch := none, xeng := { x.xeng with running := x.xeng.running.filter fun o => o.ctx ≠ c } }).modCtx t c
    fun y =>
      let y := sigs.foldl Ctx.signalOpt y
      { y with lastEnd := code, lastLz := BitVec.ofNat 21 lz, lastPhase := f.phase, supersteps := y.supersteps + 1,
               gate := .none }

/-- The tracks of a zone fall silent; collisions that no tile received are counted at their region (R283). -/
def State.clearTracks (s : State) (z : BitVec 3) : State :=
  let lost := s.tracks.filter fun v => v.zone = z && v.collide && !v.heard
  let s := s.each lost fun s v =>
    s.modRegion (if laneClass v.lane = 0 then v.inst / 16 else v.inst) fun r => { r with xmon := satInc r.xmon }
  { s with tracks := s.tracks.filter fun v => v.zone ≠ z }

/-- What the decision does to the tiles (R248, R254–R260). -/
def State.applyDecision (s : State) (z : BitVec 3) (d : Decision) (l : List (TileId × Bool)) (now : Word) : State :=
  match d with
  | .continue => s.applyReqs z ReqKind.isYield
  | .aborted | .stop => s
  | .orphaned =>
    s.each (s.members z) fun s m => (s.yieldTile m.1 m.2).modCtx m.1 m.2 fun y => { y with lastReturn := 5 }
  | .evict area =>
    let req := s.reqOf z ((s.zone z).first.getD syncZero) fun k => k.area?.isSome
    let s := s.modZone z fun x =>
      { x with started := false, evictArea := area, evictWait := req,
               reqs := x.reqs.filter fun r => some r ≠ req }
    s.each (s.members z) fun s m =>
      let y := s.ctx m.1 m.2
      if y.phase = .active ∨ y.phase = .loaded then
        let s := (s.yieldTile m.1 m.2).modCtx m.1 m.2 fun y =>
          { y with saving := true, streamHold := true,
                   rings := (List.range 9).foldl (fun r k =>
                     SMap.put PostRing.reset r k { SMap.get PostRing.reset r k with parked := true }) y.rings }
        if y.phase = .active then s.passOrVacate m.1 m.2 else s
      else s
  | .bubble g =>
    let s := s.modZone z fun x => { x with bubble := some now }
    let s := s.each (s.members z) fun s m => s.modCtx m.1 m.2 fun y => { y with bubbles := satInc y.bubbles }
    let s := s.each l fun s m => s.yieldTile m.1 m.2
    (s.each (s.members g) fun s m =>
      let y := s.ctx m.1 m.2
      if y.phase = .loaded && !y.saving then
        (s.modCtx m.1 m.2 fun y => { y with bubbles := satInc y.bubbles }).activate m.1 m.2
      else s).applyReqs z ReqKind.isYield
  | .toHost h reason =>
    let s := (s.tookFree.returnGuest z reason).each l fun s m => s.yieldTile m.1 m.2
    (s.applyReqs z ReqKind.isYield).bubbleEnd h

/-- What a member met in the exchange stops it: its exchange fault is recorded, its uncorrectable word, or the record is there
already; each member that faults of itself is treated so before the zone aborts (R76, R100, R264, R285). With the state, the record
that names the abort's cause, the first of all. -/
def State.endFault (r : State × Option Nat) (m : TileId × Bool) : State × Option Nat :=
  let s := r.1
  let y := s.ctx m.1 m.2
  let mine (o : Nat) : Option Nat := r.2 <|> some o
  let stop (s : State) : State := if (s.ctx m.1 m.2).phase.ended then s else s.stopCtx m.1 m.2
  let r := match y.xfault with
    | some f =>
      let s := s.programRecord f.code m.1 m.2 1
        (detail [(32, f.addr), (36, f.cycle), (40, f.lane), (41, f.further), (44, (y.supersteps - 1).toNat)])
      ((stop s).openWindow 0 m.1.toNat m.1 m.2 true 1 none, mine (s.log.next.toNat - 1))
    | none => (s, r.2)
  let r := match y.xue with
    | some (w, reader) =>
      let o := r.1.log.next.toNat
      (stop (r.1.ueRecord m.1 m.2 w reader), r.2 <|> some o)
    | none => r
  match y.stopPend with
  | some o => ((stop r.1).openWindow 0 m.1.toNat m.1 m.2 true 1 none, r.2 <|> some o)
  | none => r

/-- The members that fault at this end decision (R264, R285), then the zone's abort or a stop (R262, R265). -/
def State.endFaults (s : State) (z : BitVec 3) (d : Decision) (l : List (TileId × Bool)) (count : Nat) : State :=
  let r := l.foldl State.endFault (s, none)
  let s := match r.2 with
    | some o => r.1.zoneAbort z o
    | none => r.1
  let live := l.filter fun m => ¬ (s.ctx m.1 m.2).phase.ended
  match d with
  | .aborted => s.each live fun s m => (s.stopCtx m.1 m.2).openWindow 0 m.1.toNat m.1 m.2 true 1 none
  | .stop =>
    let s := s.applyReqs z ReqKind.isStop
    let s := s.record 0x010A 0 3 z.toNat false 0 1
      (detail [(32, z.toNat), (36, count), (40, 0xFFFFFFFF), (48, live.length)])
    let origin := s.log.next.toNat - 1
    let s := s.each live fun s m => (s.stopCtx m.1 m.2).openWindow 0 m.1.toNat m.1 m.2 true 1 none
    s.zoneAbort z origin
  | _ => s

/-- A halt or a reset that reached a tile during the exchange takes effect now (R433, R475). -/
def State.endDeferred (s : State) (l : List (TileId × Bool)) : State :=
  let s := s.each l fun s m =>
    let y := s.ctx m.1 m.2
    if y.haltPend then
      let s := s.modCtx m.1 m.2 fun y => { y with haltPend := false, halted := true }
      if y.phase = .active then s.haltCtx m.1 m.2 1 0 0 else s
    else s
  (s.each l fun s m => if (s.ctx m.1 m.2).resetPend then s.ctxReset m.1 m.2 false 0xFFFFFFFF else s).pumpHalts

/-- END_DECISION: the exchange of a zone ends for all its members at one cycle (R247, R248). -/
def execEndDecision (zone : BitVec 3) (s : State) : Res :=
  let zn := s.zone zone
  if s.clocksRun && s.exchangeOver zone then
    let f := zn.first.getD syncZero
    let d := s.endChoice zone
    let now := s.time
    let l := zn.arrived.flatMap fun t =>
      (if (s.ctx t false).gate = .barrier && (s.ctx t false).zone = zone && (s.ctx t false).phase = .active then [(t, false)] else []) ++
      (if (s.ctx t true).gate = .barrier && (s.ctx t true).zone = zone && (s.ctx t true).phase = .active then [(t, true)] else [])
    let count := (l.head?.map fun m => (s.ctx m.1 m.2).supersteps.toNat).getD 0
    let pass := l.filter fun m => s.decisionCode d m.1 m.2 = 3
    let s := s.each l fun s m => s.endOne zone d f zn.lz m.1 m.2
    let s := s.clearTracks zone
    let s := s.applyDecision zone d l now
    let s := s.modZone zone fun x => { x with bar := .collecting, first := none, arrived := [], lz := 0 }
    let s := s.endFaults zone d l count
    let s := s.each pass fun s m => if (s.tile m.1).active.isNone then s.passOrVacate m.1 m.2 else s
    .next ((s.settle zone).endDeferred l)
  else .next s

end Sys2Proof.Machine
end

