-- ==== Sys2Proof/Machine/Fec.lean ====
section
/-! DEFINITION. What a fabric port puts on its lanes (R347, R348, R350, R351, R354): the FEC, codewords, flits and packets as slots. -/

namespace Sys2Proof.Machine

/-! ### RS(544,514) over GF(2^10) (R347)

The field (x^10 + x^3 + 1) and the generator polynomial (roots α^0 to α^29) are those of IEEE 802.3, to which R347 refers
(PRESUMED, assumption 84). Elements of the field are naturals below 1024. -/

def gfDouble (a : Nat) : Nat := if 2 * a ≥ 1024 then (2 * a) ^^^ 1033 else 2 * a
def gfMul (a b : Nat) : Nat :=
  ((List.range 10).foldl (fun (x : Nat × Nat) i => (if b.testBit i then x.1 ^^^ x.2 else x.1, gfDouble x.2)) (0, a)).1
/-- α^n. -/
def gfAlpha : Nat → Nat
  | 0 => 1
  | n + 1 => gfDouble (gfAlpha n)
/-- a^1022, the inverse of a ≠ 0. -/
def gfInv (a : Nat) : Nat :=
  ((List.range 9).foldl (fun (x : Nat × Nat) _ => let q := gfMul x.2 x.2; (gfMul x.1 q, q)) (1, a)).1

/-- Row i: α^i times the generator's coefficients of x^0 to x^29, ten bits each, x^0 lowest. -/
def rsRows : List Nat :=
  [0x8fe282ece68a0011b235468f99448417ad07bd81eb9f7dcd69c5262305881fcb927880d0a0b,
   0x1dc595d9cc16402360638d1f22ad082f1a9f7b02d57eebbed2884cd60b103f9724f100a341f,
   0x3b8b2bb3982c8046c0c6187e455a105e352ed60da8fd575dad12d9ac12297f2e49e20044c3e,
   0x771647473959008d818c30bc1ab029bc2add8c1353fa3ebb5a25b348045bfe1c13e4098987c,
   0xee2c8e8a7bb2010b27186138b544527a553b3c26a7b4fd56bd4b26102cb6fe7827c812114f8,
   0xde599d34ff6642066e39c231fa88a4f4aa665c4c4d697a8d73960cb0596cfef0df9024229f0,
   0xbef32a4dfecc840cd87b8663753548eb545cb8989a92753ee62e5960b2d8ffe13f0448453e0,
   0x7fe6d4bffc9b480994f60ec67a6a90d4e8a955303764ea79c55cb2c161b9fdc2fe2c908a3c9,
   0xff8d397bf134d0030dec1d8ce4f529abd1d28e606e8954d78ab92512c372f9c5ec7d201679b,
   0xfd5a62d7eb69a0061bd83b19c9ea5255e3a518c9dd12a9ab1d704ab582edf1cbc8de402cb3f]

/-- One message symbol enters the remainder. -/
def rsStep (r sym : Nat) : Nat :=
  let f := sym ^^^ (r >>> 290)
  (numbered 0 rsRows).foldl (fun a e => if f.testBit e.1 then a ^^^ e.2 else a) ((r <<< 10) % 2 ^ 300)

/-- The 30 parity symbols of the message symbols: 514 first, which is the coefficient of x^29. -/
def rsParity (msg : List Nat) : List Nat :=
  let r := msg.foldl rsStep 0
  (List.range 30).map fun i => bits r (10 * (29 - i)) 10

/-- The value of a polynomial, highest coefficient first. -/
def gfEval (l : List Nat) (x : Nat) : Nat := l.foldl (fun a c => gfMul a x ^^^ c) 0

/-- The error locator while it is found (Berlekamp and Massey): the locator, the one before its last lengthening, lowest coefficient
first, its degree, the steps since then, and the discrepancy then. -/
structure Locator where
  c : List Nat
  b : List Nat
  l : Nat
  m : Nat
  d : Nat
deriving DecidableEq, Repr

def polyAdd : List Nat → List Nat → List Nat
  | [], q => q
  | p, [] => p
  | a :: p, b :: q => (a ^^^ b) :: polyAdd p q

def locate (syn : List Nat) (x : Locator) (n : Nat) : Locator :=
  let d := (List.range (x.l + 1)).foldl (fun a i => a ^^^ gfMul (x.c.getD i 0) (syn.getD (n - i) 0)) 0
  if d = 0 then { x with m := x.m + 1 }
  else
    let c := polyAdd x.c (List.replicate x.m 0 ++ x.b.map (gfMul (gfMul d (gfInv x.d))))
    if 2 * x.l ≤ n then { c := c, b := x.c, l := n + 1 - x.l, m := 1, d := d } else { x with c := c, m := x.m + 1 }

/-- What a received word leaves when it is divided by the generator: nothing where it is a word of the code. -/
def rsRemainder (word : List Nat) : List Nat := polyAdd (rsParity (word.take 514)) (word.drop 514)

/-- The errors of a received word, from its values at the generator's roots, which are its remainder's: symbol number and value; none
where there is no word within 15 symbols (R347). -/
def rsErrors (word : List Nat) : Option (List (Nat × Nat)) :=
  let rem := rsRemainder word
  let syn := (List.range 30).map fun j => gfEval rem (gfAlpha j)
  let x := (List.range 30).foldl (locate syn) { c := [1], b := [1], l := 0, m := 1, d := 1 }
  let omega := (List.range 30).map fun k =>
    (List.range (k + 1)).foldl (fun a i => a ^^^ gfMul (x.c.getD i 0) (syn.getD (k - i) 0)) 0
  let slope := (List.range x.c.length).map fun i => if i % 2 = 0 then x.c.getD (i + 1) 0 else 0
  let at' (i : Nat) : Nat := gfAlpha (1023 - (543 - i))
  let places := (List.range 544).filter fun i => gfEval x.c.reverse (at' i) = 0
  if x.l ≤ 15 ∧ places.length = x.l then
    some (places.map fun i =>
      (i, gfMul (gfAlpha (543 - i)) (gfMul (gfEval omega.reverse (at' i)) (gfInv (gfEval slope.reverse (at' i))))))
  else none

def rsFix (word : List Nat) (errs : List (Nat × Nat)) : List Nat :=
  errs.foldl (fun w e => w.set e.1 (w.getD e.1 0 ^^^ e.2)) word

def rsValid (word : List Nat) : Bool := (rsRemainder word).all (· = 0)

/-- What the FEC makes of a codeword: its 514 message symbols, and whether it corrected any; none where it cannot (R347). -/
def rsDecode (word : List Nat) : Option (List Nat × Bool) :=
  if rsValid word then some (word.take 514, false)
  else match rsErrors word with
    | some errs =>
      let w := rsFix word errs
      if rsValid w then some (w.take 514, true) else none
    | none => none

/-! ### Codewords and lanes (R348) -/

/-- The message symbols of a codeword: tag and 640 bytes. -/
def wordSymbols (kind count : Nat) (bytes : List Byte) : List Nat :=
  let m := kind % 16 + 16 * (count % 4096) + 2 ^ 20 * leNat (sliceBytes bytes 0 640)
  (List.range 514).map fun i => bits m (10 * i) 10

/-- The bytes of an ALIGN codeword: byte k is k mod 256. -/
def alignBytes : List Byte := (List.range 640).map fun k => BitVec.ofNat 8 k

/-- The columns of a table given by its rows, c of them. -/
def columns {α : Type} (c : Nat) (rows : List (List α)) : List (List α) :=
  rows.foldr (List.zipWith (· :: ·)) (List.replicate c [])
/-- A list in rows of c, n of them. -/
def inRows {α : Type} (c : Nat) : Nat → List α → List (List α)
  | 0, _ => []
  | n + 1, l => l.take c :: inRows c n (l.drop c)

/-- Symbol i goes out on lane i mod W; each lane's symbols in increasing i. -/
def toLanes (w : Nat) (l : List Nat) : List (List (BitVec 10)) :=
  columns w (inRows w (544 / w) (l.map fun s => BitVec.ofNat 10 s))
def ofLanes (w : Nat) (l : List (List (BitVec 10))) : List Nat :=
  ((columns (544 / w) (l.take w)).flatten).map fun s => s.toNat

/-- A codeword as its lanes carry it. -/
def wordLanes (w kind count : Nat) (bytes : List Byte) : List (List (BitVec 10)) :=
  let m := wordSymbols kind count bytes
  toLanes w (m ++ rsParity m)

/-- What a receiver finds in a codeword: nothing that the FEC can correct, or a KIND and 640 bytes, corrected or not. -/
inductive WordIn where
  | bad
  | word (corrected : Bool) (kind : Nat) (bytes : List Byte)
deriving DecidableEq, Repr

def readWord (w : Nat) (lanes : List (List (BitVec 10))) : WordIn :=
  match rsDecode (ofLanes w lanes) with
  | none => .bad
  | some (m, fixed) =>
    let n := m.reverse.foldl (fun a s => a * 1024 + s) 0
    .word fixed (bits n 0 4) (leBytes 640 (n >>> 20))

/-! ### Flits (R350, R351) -/

def slotDesc (s : FlitSlot) : Nat := s.vc.toNat + 4 * b2n s.cls + 8 * s.kind.toNat + 64 * b2n s.poison

/-- An idle slot. -/
def FlitSlot.idle : FlitSlot := { vc := 0, cls := false, kind := 0, poison := false, data := [] }

/-- Flit bytes 0–59 (R350). -/
def flitHead (f : Flit) : List Byte :=
  leBytes 60 (packAt 0 ([(0, f.seq.toNat), (2, f.ack.toNat), (4, b2n f.idle + 2 * b2n f.nak)] ++
    (numbered 8 f.slots).map (fun e => (e.1, slotDesc e.2)) ++
    ((List.range 8).map fun i => (24 + 2 * i, SMap.get 0 f.credits i)) ++ [(40, f.lcm.toNat)]))

/-- Flit bytes 64–639: the ten slots but the first. -/
def flitBody (f : Flit) : List Byte :=
  sliceBytes (f.slots.flatMap fun s => sliceBytes s.data 0 64) 0 576

/-- LCRC over bytes 0–59 and 64–639 (R350). -/
def lcrc (head body : List Byte) : BitVec 32 := crc32c (head ++ body)

def flitBytes (f : Flit) : List Byte :=
  flitHead f ++ leBytes 4 (lcrc (flitHead f) (flitBody f)).toNat ++ flitBody f

def flitCrcOk (l : List Byte) : Bool :=
  decide ((lcrc (sliceBytes l 0 60) (sliceBytes l 64 576)).toNat = fieldAt l 60 4)

def readSlot (l : List Byte) (i : Nat) : FlitSlot :=
  let d := fieldAt l (8 + i) 1
  { vc := BitVec.ofNat 2 d, cls := d.testBit 2, kind := BitVec.ofNat 3 (bits d 3 3), poison := d.testBit 6,
    data := sliceBytes l (64 * (i + 1)) 64 }

/-- A flit as its 640 bytes spell it; reserved bytes are not read. -/
def readFlit (l : List Byte) : Flit :=
  { seq := BitVec.ofNat 16 (fieldAt l 0 2), ack := BitVec.ofNat 16 (fieldAt l 2 2), idle := (fieldAt l 4 1).testBit 0,
    nak := (fieldAt l 4 1).testBit 1, slots := (List.range 9).map (readSlot l),
    credits := (List.range 8).foldl (fun m i => SMap.put 0 m i (fieldAt l (24 + 2 * i) 2)) [],
    lcm := BitVec.ofNat 64 (fieldAt l 40 8) }

/-! ### Packets as slots (R351, R354) -/

/-- The 64-byte header slot (R354); on a version-1 link bytes 28–63 are zero (R368). -/
def headerSlot (p : Pkt) (v1 : Bool) : List Byte :=
  let fixed := leBytes 28 (hdrNat p p.hops.toNat)
  if v1 then fixed ++ List.replicate 36 0
  else fixed ++ leBytes 4 p.hcrc.toNat ++ sliceBytes (p.checks.flatMap fun c => leBytes 4 c.toNat) 0 32

/-- The slots of a packet on its virtual channel: HEAD, BODY and LAST, or ONLY; one that was cut ends with ABORT after the granules
that came (R310, R351). -/
def packetSlots (v : Nat) (v1 : Bool) (p : Pkt) : List FlitSlot :=
  let n := p.len.toNat
  let m := (p.cut.map fun c => min c n).getD n
  let slot (kind : BitVec 3) (poison : Bool) (data : List Byte) : FlitSlot :=
    { vc := BitVec.ofNat 2 v, cls := p.cls, kind := kind, poison := poison, data := data }
  slot (if n = 0 then 5 else 1) false (headerSlot p v1) ::
    ((numbered 0 (granules m p.data)).map fun g =>
      slot (if g.1 + 1 = n ∧ p.cut = none then 3 else 2) (p.slotPoison.getLsbD g.1) g.2) ++
    if p.cut.isSome ∧ 0 < n then [slot 4 false []] else []

/-- The packet that slots carry: the header's fields, and the granules that came (R351, R354). -/
def readPacket (slots : List FlitSlot) (cut : Bool) : Option Pkt :=
  match slots with
  | [] => none
  | h :: r =>
    let f (off n : Nat) : Nat := fieldAt h.data off n
    some
      { type := BitVec.ofNat 4 (f 0 1), len := BitVec.ofNat 4 (bits (f 0 1) 4 4), hops := BitVec.ofNat 6 (f 1 1),
        sr := (f 1 1).testBit 6, pmask := BitVec.ofNat 8 (f 2 1), dest := BitVec.ofNat 15 (f 4 2), src := BitVec.ofNat 15 (f 6 2),
        txid := BitVec.ofNat 32 (f 8 4), addr := BitVec.ofNat 64 (f 12 8), args := BitVec.ofNat 64 (f 20 8),
        hcrc := BitVec.ofNat 32 (f 28 4),
        checks := (List.range (bits (f 0 1) 4 4)).map fun j => BitVec.ofNat 32 (f (32 + 4 * j) 4),
        data := r.flatMap fun s => sliceBytes s.data 0 64,
        slotPoison := (numbered 0 r).foldl (fun m e => if e.2.poison then m ||| (1#8 <<< e.1) else m) 0,
        cls := h.cls, cut := if cut then some r.length else none }

/-- The packets in progress by virtual channel after a flit's slots, and those that ended in it, each with its slots and whether an
ABORT cut it; none where a slot breaks the rules of R351. -/
def slotWalk : List FlitSlot → SMap (List FlitSlot) → Option (SMap (List FlitSlot) × List (List FlitSlot × Bool))
  | [], m => some (m, [])
  | x :: r, m =>
    let v := x.vc.toNat
    let open' := SMap.get [] m v
    let done (l : List FlitSlot) (cut : Bool) : Option (SMap (List FlitSlot) × List (List FlitSlot × Bool)) :=
      (slotWalk r (SMap.put [] m v [])).map fun e => (e.1, (l, cut) :: e.2)
    match x.kind.toNat with
    | 0 => slotWalk r m
    | 1 => if open' = [] then slotWalk r (SMap.put [] m v [x]) else none
    | 2 => if open' = [] then none else slotWalk r (SMap.put [] m v (open' ++ [x]))
    | 3 => if open' = [] then none else done (open' ++ [x]) false
    | 4 => if open' = [] then slotWalk r m else done open' true
    | 5 => if open' = [] then done [x] false else none
    | _ => none

end Sys2Proof.Machine
end

