-- ==== Sys2Proof/Machine/Memory.lean ====
section
/-! DEFINITION. Package memory at its controllers (R312–R316, R335, R342–R345): the local memory map, the interleave, granule reads,
writes and atomics, and the power of the stacks (R388–R390). -/

namespace Sys2Proof.Machine

/-! ### The local memory map and the interleave (R314, R315) -/

/-- What a local address selects (R314). -/
inductive LocKind where
  | package
  | host
  | none
deriving DecidableEq, Repr

/-- Base of the host window. -/
def hostWinBase : Nat := 0x10000000000

def State.locKind (s : State) (a : Nat) : LocKind :=
  if a < s.capacity then .package
  else if hostWinBase ≤ a ∧ a < 2 * hostWinBase ∧ s.memory.hostWin then .host
  else .none

/-- Where a package-memory address lies (R315). -/
structure Place where
  stack : Nat
  chan : Nat
  pch : Nat
  idx : Nat
deriving DecidableEq, Repr

/-- Bits of a chunk number folded upon each other. -/
def foldXor (c sh : Nat) : Nat := c ^^^ (c >>> sh)

def State.place (s : State) (a : Nat) : Place :=
  let cap := s.capacity
  let pch := bits a 6 1
  match s.memory.intlvMode.toNat with
  | 1 =>
    let h := b2n (decide (a ≥ cap / 2))
    let c := (a - h * (cap / 2)) / 4096
    { stack := 4 * h + (foldXor c 8 ^^^ c >>> 16) % 4, chan := foldXor (c >>> 2) 8 % 32, pch := pch, idx := c >>> 7 }
  | 2 =>
    let c := a % (cap / 8) / 4096
    { stack := a / (cap / 8), chan := c % 32, pch := pch, idx := c >>> 5 }
  | _ =>
    let c := a / 4096
    { stack := (foldXor c 8 ^^^ c >>> 16) % 8, chan := foldXor (c >>> 3) 8 % 32, pch := pch, idx := c >>> 8 }

/-- The row an access opens, as one number: the manual does not give the map from idx to rows, so a row is taken to be a
chunk of a pseudo-channel. -/
def Place.row (p : Place) : Nat := (p.idx * 32 + p.chan) * 2 + p.pch

/-- The global physical address of a local one (R18). -/
def State.globalAddr (s : State) (a : Nat) : Nat := s.fabric.devId.toNat * 2 ^ 41 + a

/-! ### Domains (R388–R390) -/

/-- The domain of stack m. -/
def hbmDomain (m : Nat) : Nat := 162 + m

/-- PWR_DOM_REQ's bit of a domain. -/
def State.domReqOff (s : State) (d : Nat) : Bool := (SMap.get 0 s.power.domReq (d / 32)).getLsbD (d % 32)

/-- The domains that must be on before a domain can be: the bridge halves, the spine, a port's service core (R388, R389). -/
def domainNeeds (d : Nat) : List Nat :=
  if d < 144 then [160, 161, 144 + d / 9]
  else if d < 160 then [160, 161]
  else if 170 ≤ d ∧ d < 202 then [202 + (d - 170) / 8]
  else []

/-- A cluster domain of a cluster that the grade has fused off: it is always off (R388). -/
def State.domainFused (s : State) (d : Nat) : Bool := decide (d < 144) && decide (d % 9 ≥ s.clusterCount)

/-- Ask for one domain to be switched on. -/
def State.switchOnOne (s : State) (d : Nat) : State :=
  if s.domainOn d || s.power.domPending.contains d then s
  else { s with power := { s.power with domPending := s.power.domPending ++ [d] } }

def State.setDomReq (s : State) (d : Nat) (off : Bool) : State :=
  let w := SMap.get 0 s.power.domReq (d / 32)
  let b : Word32 := 1#32 <<< (d % 32)
  { s with power := { s.power with domReq := SMap.put 0 s.power.domReq (d / 32) (if off then w ||| b else w &&& ~~~ b) } }

/-- PWR_DOM_REFUSE records a refused request (R389). -/
def State.refuseDomain (s : State) (d : Nat) : State :=
  { s with power := { s.power with domRefuse := BitVec.ofNat 32 (2 ^ 31 + d) } }

/-- A domain that this one needs is off and held off by its request bit (R388, R389). -/
def State.domBlocked (s : State) (d : Nat) : Bool :=
  (domainNeeds d).any fun e => !s.domainOn e && !s.power.domPending.contains e && s.domReqOff e

/-- Ask for a domain to be switched on, after those it needs, in their order (R389, R391); one held off by request is not
switched on with it. -/
def State.switchOn (s : State) (d : Nat) : State :=
  if s.domainFused d || s.domBlocked d then s else s.each (domainNeeds d ++ [d]) State.switchOnOne

/-- How an access finds the stack it addresses: ready, asleep and being woken, or held off by request (R390). -/
inductive StackReady where
  | ready
  | waking
  | refused
deriving DecidableEq, Repr

def State.stackReady (s : State) (m : Nat) : StackReady :=
  if s.domainOn (hbmDomain m) then .ready else if s.domReqOff (hbmDomain m) then .refused else .waking

/-! ### Errors of granules (R313, R345) -/

def State.granErr (s : State) (g : Nat) : GranErr := SMap.get .ok s.memory.gran g
def State.setGranErr (s : State) (g : Nat) (e : GranErr) : State :=
  { s with memory := { s.memory with gran := SMap.put .ok s.memory.gran g e } }

/-- MEM_POISON keeps the first granule poisoned in a stack (R345). Sources: 0 check mismatch, 1 uncorrectable code,
2 poisoned data written. -/
def State.notePoison (s : State) (g source : Nat) : State :=
  s.modStack (s.place (64 * g)).stack fun k =>
    if k.poisonLo.getLsbD 0 then { k with poisonLo := k.poisonLo ||| 2 }
    else { k with poisonLo := BitVec.ofNat 32 (bits g 0 26 * 64 + 1),
                  poisonHi := BitVec.ofNat 32 (source * 2 ^ 30 + bits g 26 9) }

/-- DETAIL of CHECK_FAIL and HBM_UE (R462). -/
def checkDetail (addr point egress src txid j : Nat) : Nat :=
  detail [(32, addr), (40, point), (41, egress), (48, src), (52, txid), (56, j)]

/-- The controller finds an uncorrectable code: the granule is stored back poisoned and recorded once (R313). -/
def State.foundUe (s : State) (g : Nat) : State :=
  ((s.setGranErr g .poisoned).notePoison g 1).alarm 0x0502 3 (s.place (64 * g)).stack
    (checkDetail (s.globalAddr (64 * g)) 3 0 0 0 0) false 0 9

/-- A check value fails at one of the points of R343: 0 into a scratchpad, 2 host egress, 3 controller (R345). -/
def State.foundMismatch (s : State) (g point : Nat) : State :=
  ((s.setGranErr g .poisoned).notePoison g 0).alarm 0x0501 3 (s.place (64 * g)).stack
    (checkDetail (s.globalAddr (64 * g)) point 0 0 0 0) false 0 9

/-- Count a corrected symbol in MEM_CE, with the alarm at the threshold of RAS_CE_CFG. -/
def State.countMemCe (s : State) (m : Nat) : State :=
  let new : BitVec 16 := satInc (s.stack m).ce
  let th := bits s.log.ceCfg.toNat 16 16
  let old := (s.stack m).ce
  let s := s.modStack m fun k => { k with ce := new }
  if old.toNat < th ∧ th ≤ new.toNat then s.alarm 0x0503 3 m (detail [(32, new.toNat)]) false 0 9 else s

/-- An access opens its row (R312). -/
def State.touchRow (s : State) (g : Nat) : State :=
  let p := s.place (64 * g)
  s.modStack p.stack fun k => if k.openRows.contains p.row then k else { k with openRows := k.openRows ++ [p.row] }

/-! ### Granule reads, writes and atomics (R313, R335, R343–R345) -/

/-- The 64 bytes of a granule. -/
def State.granBytes (s : State) (g : Nat) : List Byte := memRead s.memory.bytes (64 * g) 64

/-- A controller's read of a granule: correction and on-die correction, the count, and what the granule is found to be: ok, poisoned, or with a
check that will not match where it is next verified (R312, R313). -/
def State.granRead (s : State) (g : Nat) : State × List Byte × GranErr :=
  let l := s.granBytes g
  let s := s.touchRow g
  match s.granErr g with
  | .ok => (s, l, .ok)
  | .single | .onDie => (s.countMemCe (s.place (64 * g)).stack, l, .ok)
  | .uncorrectable => (s.foundUe g, l, .poisoned)
  | .mismatch => (s, l, .mismatch)
  | .poisoned => (s, l, .poisoned)

/-- A read whose check is verified at a point (R343): its bytes and whether they are poisoned. -/
def State.granReadAt (s : State) (g point : Nat) : State × List Byte × Bool :=
  match s.granRead g with
  | (s, l, .mismatch) => (s.foundMismatch g point, l, true)
  | (s, l, e) => (s, l, decide (e = .poisoned))

/-- Bytes placed at offsets of a granule. -/
def mergeBytes (l : List Byte) (ws : List (Nat × Byte)) : List Byte := ws.foldl (fun l w => l.set w.1 w.2) l

/-- Every byte of a granule is written. -/
def wholeGran (ws : List (Nat × Byte)) : Bool := (List.range 64).all fun i => ws.any fun w => w.1 = i

/-- A controller's write of bytes of a granule (R344, R345): the state, and whether the granule is poisoned after it. -/
def State.granWrite (s : State) (g : Nat) (ws : List (Nat × Byte)) (poison : Bool) : State × Bool :=
  let put (s : State) : State :=
    { s with memory := { s.memory with bytes := memWrite s.memory.bytes (64 * g) (mergeBytes (s.granBytes g) ws) } }
  if wholeGran ws then
    let s := (put (s.touchRow g)).setGranErr g (if poison then .poisoned else .ok)
    (if poison then s.notePoison g 2 else s, poison)
  else
    let r := s.granReadAt g 3
    let bad := r.2.2 || poison
    let s := (put r.1).setGranErr g (if bad then .poisoned else .ok)
    (if poison then s.notePoison g 2 else s, bad)

/-- The new word of an atomic (R236, R335). -/
def amoWord (aop : Nat) (old x cmp : Word) : Word :=
  match aop with
  | 0 => old + x
  | 1 => x
  | 2 => if old = cmp then x else old
  | 3 => if old.slt x then old else x
  | 4 => if old.slt x then x else old
  | 5 => if old.ult x then old else x
  | 6 => if old.ult x then x else old
  | _ => old

/-- A controller's atomic on an 8-byte word: the state and the old word, none where the granule is poisoned (R335). -/
def State.granAtomic (s : State) (a aop : Nat) (x cmp : Word) : State × Option Word :=
  let g := a / 64
  let off := a % 64 / 8 * 8
  let r := s.granReadAt g 3
  if r.2.2 then (r.1, none)
  else
    let old : Word := BitVec.ofNat 64 (fieldAt r.2.1 off 8)
    let l := mergeBytes r.2.1 ((numbered' off (leBytes 8 (amoWord aop old x cmp).toNat)))
    (({ r.1 with memory := { r.1.memory with bytes := memWrite r.1.memory.bytes (64 * g) l } }).setGranErr g .ok, some old)
where
  numbered' : Nat → List Byte → List (Nat × Byte)
    | _, [] => []
    | i, b :: r => (i, b) :: numbered' (i + 1) r

/-! ### Plain runs of package memory (tables, host copies, save areas) -/

/-- The granules that `n` bytes from `a` touch. -/
def gransOf (a n : Nat) : List Nat := if n = 0 then [] else (List.range ((a + n - 1) / 64 - a / 64 + 1)).map (a / 64 + ·)

/-- Read a run at a point of verification: the bytes, and the first poisoned granule. -/
def State.pkgRead (s : State) (a n point : Nat) : State × List Byte × Option Nat :=
  let r := (gransOf a n).foldl (fun (acc : State × List Byte × Option Nat) g =>
    let r := acc.1.granReadAt g point
    (r.1, acc.2.1 ++ r.2.1, acc.2.2 <|> (if r.2.2 then some g else none))) (s, [], none)
  (r.1, sliceBytes r.2.1 (a % 64) n, r.2.2)

/-- The bytes of a run that fall in granule g, at their offsets. -/
def runIn (a : Nat) (l : List Byte) (g : Nat) : List (Nat × Byte) :=
  let lo := max a (64 * g)
  let n := min (a + l.length) (64 * g + 64) - lo
  (List.range n).map fun i => (lo + i - 64 * g, l.getD (lo + i - a) 0)

/-- Write a run; the granules in `bad` are written poisoned. -/
def State.pkgWrite (s : State) (a : Nat) (l : List Byte) (bad : Nat → Bool) : State :=
  s.each (gransOf a l.length) fun s g => (s.granWrite g (runIn a l g) (bad g)).1

/-- A run lies in package memory. -/
def State.inPackage (s : State) (a n : Nat) : Bool := decide (a + n ≤ s.capacity)

/-! ### The controllers' events -/

/-- A stack that an access addresses may serve it now; otherwise it is being woken (R390). -/
def State.withStack (s : State) (g : Nat) (f : State → State) : State :=
  let m := (s.place (64 * g)).stack
  match s.stackReady m with
  | .ready => f s
  | .waking => s.switchOn (hbmDomain m)
  | .refused => s

/-- HBM_READ: a controller reads a granule (R313). -/
def execHbmRead (addr : Nat) (s : State) : Res :=
  .next (if s.inPackage addr 1 then s.withStack (addr / 64) fun s => (s.granRead (addr / 64)).1 else s)

/-- HBM_WRITE: a controller writes bytes of a granule from an offset in it (R344, R345). -/
def execHbmWrite (addr : Nat) (off : Nat) (data : List Byte) (poison : Bool) (s : State) : Res :=
  .next (if s.inPackage addr 1 then
    s.withStack (addr / 64) fun s =>
      (s.granWrite (addr / 64) (runIn (addr / 64 * 64 + off % 64) (data.take (64 - off % 64)) (addr / 64)) poison).1
    else s)

/-- HBM_ATOMIC: a controller performs an atomic on the aligned word at an address (R335). -/
def execHbmAtomic (addr : Nat) (aop : BitVec 3) (x cmp : Word) (s : State) : Res :=
  .next (if s.inPackage addr 1 then s.withStack (addr / 64) fun s => (s.granAtomic addr aop.toNat x cmp).1 else s)

/-- HBM_ROW_CLOSE: a row without an access for 32 ns is closed (R312). -/
def execHbmRowClose (stack row : Nat) (s : State) : Res :=
  .next (s.modStack stack fun k => { k with openRows := k.openRows.filter fun r => r ≠ row })

/-- HBM_REFRESH: the refresh rate follows the temperature that the stack reports, and the refresh of a bank closes that bank's rows, which
the event names: the manual does not give the map from idx to banks (R312, R315). -/
def execHbmRefresh (stack : Nat) (rows : List Nat) (s : State) : Res :=
  .next (s.modStack stack fun k =>
    if k.selfRefresh then k
    else { k with refDouble := decide (k.temp.toNat > 85), openRows := k.openRows.filter fun r => !rows.contains r })

/-- MEM_CE_CLEAR (MEM_CE). -/
def execMemCeClear (stack : Nat) (v : Word32) (s : State) : Res :=
  .next (if v.getLsbD 31 then s.modStack stack fun k => { k with ce := 0 } else s)

/-- SP_CE_CLEAR: CLEAR of REGION_CL_SP_CE_p (R99). -/
def execSpCeClear (region cluster pos : Nat) (s : State) : Res :=
  .next (s.modCluster (16 * region + cluster) fun k => { k with spCe := SMap.put 0 k.spCe pos 0 })

/-! ### The interleave change (R316) -/

/-- A context is loaded on some tile. -/
def State.anyLoaded (s : State) : Bool :=
  s.tiles.any fun p => decide (p.2.c0.phase ≠ .empty) || decide (p.2.c1.phase ≠ .empty)

/-- A host copy or fill, or a host-window access, is in progress. -/
def State.hostAccess (s : State) : Bool :=
  (s.host.copies.any fun j => decide (j.opcode = 0x0105) || decide (j.opcode = 0x0106)) ||
    s.memory.reqs.any fun r => r.dev.isNone && (decide (r.kind = 4) || decide (r.kind = 8))

/-- A write of MEM_INTLV (R316): at any time but the one that allows a change it sets REFUSED; the mode in force is no change. -/
def execInterleaveChange (v : Word32) (s : State) : Res :=
  let s := if v.getLsbD 30 then { s with memory := { s.memory with intlvRefused := false } } else s
  let m := v.extractLsb' 0 2
  .next (
    if m = 3 ∨ s.memory.intlvBusy ∨ s.anyLoaded ∨ s.hostAccess then
      { s with memory := { s.memory with intlvRefused := true } }
    else if m = s.memory.intlvMode then s
    else { s with memory := { s.memory with intlvMode := m, intlvBusy := true } })

/-- INTERLEAVE_FILL_DONE: package memory holds zero granules with valid checks, and BUSY clears (R316). -/
def execInterleaveFillDone (s : State) : Res :=
  .next (if s.memory.intlvBusy then { s with memory := { s.memory with intlvBusy := false, bytes := [], gran := [] } } else s)

end Sys2Proof.Machine
end

