-- ==== Sys2Proof/Machine/HostCmd.lean ====
section
/-! DEFINITION. What every host command shares (R414, R418, R420, R428), and the copies and fills of package memory, host memory
and other devices (R324, R424). -/

namespace Sys2Proof.Machine

/-! ### Started commands (R414, R418, R428) -/

/-- Status codes of R421 beside those of Ops. -/
def stOpcode := 0x1
def stVersion := 0x3
def stQueue := 0x4
def stFenced := 0x7
def stImage := 0x100
def stFingerprint := 0x101
def stPendingRepair := 0x102
def stClusterOut := 0x103
def stPartition := 0x104
def stZone := 0x105
def stMulticast := 0x106
def stLanes := 0x107
def stXcal := 0x108
def stDomainOff := 0x109
def stProof := 0x10A
def stPairing := 0x10B
def stSaveAltered := 0x10C
def stStoresLive := 0x10D
def stGroupKind := 0x200
def stGroupId := 0x201
def stRepairBusy := 0x300

/-- A started command that its family has not taken yet, with this header, opcode and parameters: (offset from P, length in
bytes, value). -/
def Started.isFor (e : Started) (h : CmdHdr) (op : BitVec 16) (fields : List (Nat × Nat × Nat)) : Bool :=
  !e.run && decide (e.seq = h.seq) && decide (e.opcode = op) && decide (e.packet.getLsbD 25 = h.irq) &&
  decide (e.packet.getLsbD 26 = h.expert) && decide (cmdField e.packet 8 4 = h.timeoutMs.toNat) &&
  fields.all fun f => decide (cmdField e.packet (16 + f.1) f.2.1 = f.2.2)

/-- The command is the one that was started, and the management processor goes on: no hold of the management bus stalls it (R311). -/
def State.hasCmd (s : State) (h : CmdHdr) (op : BitVec 16) (fields : List (Nat × Nat × Nat)) : Bool :=
  !s.busHeld && (s.queue h.queue).started.any fun e => e.isFor h op fields

/-- The command has been given to its family. -/
def State.takeCmd (s : State) (h : CmdHdr) (op : BitVec 16) (fields : List (Nat × Nat × Nat)) : State :=
  s.modQueue h.queue fun q =>
    { q with started := updateWhere (fun e => e.isFor h op fields) (fun e => { e with run := true }) q.started }

/-- The commands that a fenced device accepts (R428). -/
def fencedOk (op : BitVec 16) : Bool := op = 0x0001 || op = 0x0601 || op = 0x0602 || op = 0x0501 || op = 0x0801

/-- Run a started command; a fenced device answers FENCED (R428). Without such a command nothing happens. -/
def State.onCmd (s : State) (h : CmdHdr) (op : BitVec 16) (fields : List (Nat × Nat × Nat)) (f : State → State) : State :=
  if s.hasCmd h op fields then
    let s := s.takeCmd h op fields
    if s.log.fenced && !fencedOk op then s.fail h op stFenced else f s
  else s

/-- The management processor has given every started command to its family. -/
def State.idleMgmt (s : State) : Bool := s.host.queues.all fun q => q.2.started.all fun e => e.run

/-- A domain that a command finds off and that is not switched on for it: it, or one that it needs, is held off by request, or
automatic switching is off; a stack's pair is woken by an access whatever AUTO says (R389, R390; assumption 38). -/
def State.domDenied (s : State) (d : Nat) : Bool :=
  !s.domainOn d && !s.power.domPending.contains d &&
    (s.domReqOff d || s.domBlocked d || (!s.power.domCfg.getLsbD 31 && !(decide (162 ≤ d) && decide (d < 170))))

/-- The domain that DOMAIN_OFF names: the one that is held off. -/
def State.deniedDomain (s : State) (d : Nat) : Nat :=
  if s.domReqOff d then d
  else ((domainNeeds d).find? fun e => !s.domainOn e && !s.power.domPending.contains e && s.domReqOff e).getD d

/-- Run a started command that needs power domains: one that is denied draws DOMAIN_OFF; while one is being switched on the command
waits to be presented again, and the management processor starts no other (R389). -/
def State.onCmdNeeds (s : State) (h : CmdHdr) (op : BitVec 16) (fields : List (Nat × Nat × Nat)) (need : List Nat)
    (f : State → State) : State :=
  if s.hasCmd h op fields then
    if s.log.fenced && !fencedOk op then (s.takeCmd h op fields).fail h op stFenced
    else match need.find? s.domDenied with
      | some d => (s.takeCmd h op fields).fail h op stDomainOff (s.deniedDomain d)
      | none =>
        match need.filter fun d => !s.domainOn d with
        | [] => f (s.takeCmd h op fields)
        | off => { s.each off State.switchOn with power := { (s.each off State.switchOn).power with domHold := true } }
  else s

/-! ### Where a global range lies (R18, R314) -/

/-- What a byte of a global physical address reaches: this device's package memory, its host window, another device, or
nothing. -/
inductive GPlace where
  | package (a : Nat)
  | host (a : Nat)
  | remote (d : BitVec 15) (a : Nat)
  | nothing
deriving DecidableEq, Repr

def State.placeOf (s : State) (g : Nat) : GPlace :=
  let d : BitVec 15 := BitVec.ofNat 15 (g / 2 ^ 41)
  if g ≥ 2 ^ 56 then .nothing
  else if s.isOwn d then
    match s.locKind (g % 2 ^ 41) with
    | .package => .package (g % 2 ^ 41)
    | .host => .host (g % 2 ^ 41 - hostWinBase)
    | .none => .nothing
  else .remote d (g % 2 ^ 41)

/-- The granules of a global range: each with the offset in the range at which it begins, the number of bytes, and the global
address. -/
def rangeGrans (g n : Nat) : List (Nat × Nat × Nat) :=
  (gransOf g n).map fun k =>
    let lo := max g (64 * k)
    (lo - g, min (g + n) (64 * k + 64) - lo, lo)

/-- The stacks that a range of global addresses needs and that are off. The interleave turns every 4 KiB (R315). -/
def State.rangeAsleep (s : State) (g n : Nat) : List Nat :=
  if n = 0 ∨ ((List.range 8).all fun m => s.stackReady m = .ready) then []
  else
    ((List.range ((g + n - 1) / 4096 - g / 4096 + 1)).filterMap fun i =>
      match s.placeOf (max g ((g / 4096 + i) * 4096)) with
      | .package a =>
        let m := (s.place a).stack
        if s.stackReady m = .ready then none else some m
      | _ => none).eraseDups

/-! ### Copies and fills (R324, R424) -/

/-- Replace a run of a list. -/
def spliceAt {α : Type} (l : List α) (off : Nat) (v : List α) : List α := l.take off ++ v ++ l.drop (off + v.length)

/-- Every byte with one code. -/
def coded (l : List Byte) (code : BitVec 4) : List (Byte × BitVec 4) := l.map fun b => (b, code)

/-- Bytes that are there: delivered, or delivered and poisoned. -/
def byteThere (b : Byte × BitVec 4) : Bool := b.2 = 0 || b.2 = 4

/-- The reply of a copy or fill (R424): bytes copied and the lowest failing offset, with XFER and the code of R323 there
where some failed. -/
def State.copyResult (s : State) (j : CopyJob) : State :=
  let bad := (List.range j.bytes.length).filter fun i => (j.bytes.getD i (0, 0)).2 ≠ 0
  match bad with
  | [] => s.ok j.hdr j.opcode (j.p.len + (2 ^ 64 - 1) * 2 ^ 64)
  | i :: _ =>
    let code := (j.bytes.getD i (0, 0)).2
    s.reply j.hdr j.opcode stXfer code.toNat (BitVec.ofNat 128 (j.p.len - bad.length + i * 2 ^ 64))

/-- The reply of a debug read of global memory (R424, R478): the bytes read, and whether any was poisoned. -/
def State.debugReadResult (s : State) (j : CopyJob) : State :=
  let n := (j.bytes.filter byteThere).length
  let poison := j.bytes.any fun b => b.2 = 4
  let data := leNat (j.bytes.map (·.1))
  match j.bytes.find? fun b => !byteThere b with
  | some b => s.reply j.hdr j.opcode stXfer b.2.toNat (BitVec.ofNat 128 (n + b2n poison * 2 ^ 32))
  | none =>
    if isTapOp j.opcode then
      let s := s.ok j.hdr j.opcode data
      if poison then { s with dbg := { s.dbg with status := 2 } } else s
    else s.ok j.hdr j.opcode (n + b2n poison * 2 ^ 32)

/-- The reply of a debug write of global memory (R424, R478). -/
def State.debugWriteResult (s : State) (j : CopyJob) : State :=
  match j.bytes.find? fun b => b.2 ≠ 0 with
  | some b => s.reply j.hdr j.opcode stXfer b.2.toNat (BitVec.ofNat 128 (j.bytes.filter fun b => b.2 = 0).length)
  | none => s.ok j.hdr j.opcode (if isTapOp j.opcode then 0 else j.p.len)

/-- A copy, a fill or a debug access of global memory ends with its reply. -/
def State.copyReply (s : State) (j : CopyJob) : State :=
  let s := { s with host := { s.host with copies := eraseFirst (fun q => q = j) s.host.copies } }
  match j.opcode.toNat with
  | 0x0105 | 0x0106 => s.copyResult j
  | 0x0704 | 0x8003 => s.debugReadResult j
  | _ => s.debugWriteResult j

/-- The opcodes whose host side is reached through the host port. -/
def usesHost (op : BitVec 16) : Bool := op = 0x0105 || op = 0x0704 || op = 0x0705

/-- A request to another device for a copy. -/
def State.copyAsk (s : State) (d : BitVec 15) (type : BitVec 4) (addr args : Nat) (data : List Byte) (pmask : BitVec 8) :
    State × BitVec 32 :=
  let tx := s.memory.nextTx
  let s := { s with memory := { s.memory with nextTx := s.memory.nextTx + 1 } }
  (s.sendPkt (s.mkPkt type d tx addr args data pmask), tx)

/-- Keep a job as it now stands. -/
def State.putJob (s : State) (old new : CopyJob) : State :=
  { s with host := { s.host with copies := updateWhere (fun q => q = old) (fun _ => new) s.host.copies } }

/-- Issue one PCIe read of host memory for a copy: n bytes at a, which stand at an offset of the source (R408). -/
def copyAskHost (acc : State × CopyJob) (a off n : Nat) : State × CopyJob :=
  let s := acc.1
  let tx := s.memory.nextTx
  ({ s with memory := { s.memory with nextTx := tx + 1 } }.emit (.read tx a n),
    { acc.2 with wait := acc.2.wait ++ [(tx, none, off, n)] })

/-- Read one granule of the source: at once, or by a request. -/
def copyReadGran (acc : State × CopyJob) (r : Nat × Nat × Nat) : State × CopyJob :=
  let s := acc.1
  let j := acc.2
  let set (s : State) (l : List (Byte × BitVec 4)) : State × CopyJob := (s, { j with bytes := spliceAt j.bytes r.1 l })
  match s.placeOf r.2.2 with
  | .package a =>
    let q := s.pkgRead a r.2.1 2
    set q.1 (coded q.2.1 (if q.2.2.isSome then 4 else 0))
  | .host a => copyAskHost acc a r.1 r.2.1
  | .remote d a =>
    if !entryOk (s.routeEntry d.toNat) then set s (List.replicate r.2.1 (0, 2))
    else
      let q := s.copyAsk d 4 (a / 64 * 64) 1 [] 0
      (q.1, { j with wait := j.wait ++ [(q.2, some d, r.1, r.2.1)] })
  | .nothing => set s (List.replicate r.2.1 (0, 1))

/-- The PCIe reads of a range of host memory: offset and length of each, none longer than 4,096 bytes or across a 4 KiB boundary. -/
def hostChunks (a n : Nat) : List (Nat × Nat) :=
  if n = 0 then []
  else (List.range ((a + n - 1) / 4096 - a / 4096 + 1)).map fun i =>
    let lo := max a ((a / 4096 + i) * 4096)
    (lo - a, min (a + n) ((a / 4096 + i + 1) * 4096) - lo)

/-- Write one granule of the destination: bytes whose source failed are not written, and poisoned bytes poison the granule
(R324). -/
def copyWriteGran (acc : State × CopyJob) (r : Nat × Nat × Nat) : State × CopyJob :=
  let s := acc.1
  let j := acc.2
  let l := (j.bytes.drop r.1).take r.2.1
  let have? := l.all fun b => b.2 = 0 || b.2 = 4
  let bad := l.any fun b => b.2 = 4
  let data := l.map (·.1)
  if !have? then acc
  else match s.placeOf r.2.2 with
    | .package a => ((s.granWrite (a / 64) (runIn a data (a / 64)) bad).1, j)
    | .host a => (s.emit (.write a data bad), j)
    | .remote d a =>
      if !entryOk (s.routeEntry d.toNat) then
        (s, { j with bytes := spliceAt j.bytes r.1 (coded data 2) })
      else
        let o := a % 64
        let full := List.replicate o 0 ++ data ++ List.replicate (64 - o - data.length) 0
        let q := s.copyAsk d 5 (a / 64 * 64) (o + (o + data.length - 1) * 256) full (if bad then 1 else 0)
        (q.1, { j with wait := j.wait ++ [(q.2, some d, r.1, r.2.1)] })
    | .nothing => (s, { j with bytes := spliceAt j.bytes r.1 (coded data 1) })

/-- The writes of a copy: to host memory as memory writes, else granule by granule. -/
def State.copyWrite (s : State) (j : CopyJob) : State :=
  let j2 := { j with phase := 2 }
  let s := s.putJob j j2
  if j.p.dstHost then
    let ok := j.bytes.takeWhile fun b => b.2 = 0 || b.2 = 4
    let s := if ok = [] || isTapOp j.opcode then s else s.emit (.write j.p.dst (ok.map (·.1)) (ok.any fun b => b.2 = 4))
    s.copyReply j2
  else
    let r := (rangeGrans j.p.dst j.p.len).foldl copyWriteGran (s, j2)
    let s := r.1.putJob j2 r.2
    if r.2.wait = [] then s.copyReply r.2 else s

/-- A byte of an overlapping copy whose source the copy itself may have overwritten is a free value. -/
def overlapped (j : CopyJob) (i : Nat) : Bool :=
  !j.p.srcHost && !j.p.dstHost && decide (j.p.src ≠ j.p.dst) && decide (j.p.dst ≤ j.p.src + i) &&
    decide (j.p.src + i < j.p.dst + j.p.len) && decide (j.opcode = 0x0105)

/-- The source is read: go on to the writes. -/
def State.copyNext (s : State) (j : CopyJob) : State :=
  let r := (List.range j.bytes.length).foldl (fun (acc : State × List (Byte × BitVec 4)) i =>
    let b := j.bytes.getD i (0, 0)
    if overlapped j i then (acc.1.tookFree, acc.2 ++ [(acc.1.freeBits 8, b.2)]) else (acc.1, acc.2 ++ [b])) (s, [])
  let j2 := { j with bytes := r.2 }
  (r.1.putJob j j2).copyWrite j2

/-- Start a copy or fill whose domains are on and that needs no host access while the function is not in D0 (R390, R408). -/
def State.copyStart (s : State) (j : CopyJob) : State :=
  let asleep := (if j.p.srcHost then [] else s.rangeAsleep j.p.src j.p.len) ++
    (if j.p.dstHost then [] else s.rangeAsleep j.p.dst j.p.len)
  if asleep ≠ [] then s.each asleep fun s m => s.switchOn (hbmDomain m)
  else if (j.p.srcHost || j.p.dstHost) && usesHost j.opcode && s.host.power ≠ .d0 then s
  else if j.p.srcHost ∧ j.opcode = 0x0105 then
    let j1 := { j with phase := 1, bytes := List.replicate j.p.len (0, 0) }
    let r := (hostChunks j.p.src j.p.len).foldl (fun a c => copyAskHost a (j.p.src + c.1) c.1 c.2) (s.putJob j j1, j1)
    let s := r.1.putJob j1 r.2
    if r.2.wait = [] then s.copyNext r.2 else s
  else if j.p.srcHost then
    let j2 := { j with phase := 1, bytes := coded (sliceBytes j.p.data 0 j.p.len) 0 }
    (s.putJob j j2).copyNext j2
  else
    let j1 := { j with phase := 1, bytes := List.replicate j.p.len (0, 0) }
    let r := (rangeGrans j.p.src j.p.len).foldl copyReadGran (s.putJob j j1, j1)
    let s := r.1.putJob j1 r.2
    if r.2.wait = [] then s.copyNext r.2 else s

/-- Start the copies that wait for a domain or for D0. -/
def State.pumpCopies (s : State) : State := s.each (s.host.copies.filter fun j => j.phase = 0) State.copyStart

/-- An answer from another device to a copy's request: data, or a code of R323 (R323, R324, R365). -/
def State.copyAnswer (s : State) (tx : BitVec 32) (data : Option (List Byte)) (code : BitVec 4) : State :=
  match s.host.copies.find? fun j => j.wait.any fun w => w.1 = tx with
  | none => s
  | some j =>
    match j.wait.find? fun w => w.1 = tx with
    | none => s
    | some w =>
      let off := w.2.2.1
      let n := w.2.2.2
      let a := (if j.phase = 1 then j.p.src else j.p.dst) + off
      let old := (j.bytes.drop off).take n
      let new : List (Byte × BitVec 4) :=
        if j.phase = 1 then coded (sliceBytes (data.getD []) (if w.2.1.isSome then a % 64 else 0) n) code
        else if code = 0 then old else coded (old.map (·.1)) code
      let j2 := { j with bytes := spliceAt j.bytes off new, wait := j.wait.filter fun v => v.1 ≠ tx }
      let s := s.putJob j j2
      if j2.wait ≠ [] then s else if j2.phase = 1 then s.copyNext j2 else s.copyReply j2

/-- A copy waits for an answer to this TXID from a place that a test accepts: another device, or none for the host. -/
def State.copyAwaits (s : State) (tx : BitVec 32) (d : Option (BitVec 15) → Bool) : Bool :=
  s.host.copies.any fun j => j.wait.any fun w => decide (w.1 = tx) && d w.2.1

/-- Some byte of a range on this device reaches no memory (R314). -/
def State.rangeBad (s : State) (g n : Nat) : Bool := (rangeGrans g n).any fun r => s.placeOf r.2.2 = .nothing

/-- Begin a copy or fill under check 5 of R420; a debug access that reaches no memory fails with a code of R323 instead (R478). -/
def State.copyBegin (s : State) (h : CmdHdr) (op : BitVec 16) (p : CopyParams) : State :=
  if s.memory.intlvBusy then s.fail h op stMemBusy
  else if (op = 0x0105 || op = 0x0106) && ((!p.srcHost && s.rangeBad p.src p.len) || (!p.dstHost && s.rangeBad p.dst p.len)) then
    s.fail h op stBadAddr
  else
    let asleep := (if p.srcHost then [] else s.rangeAsleep p.src p.len) ++
      (if p.dstHost then [] else s.rangeAsleep p.dst p.len)
    match asleep.find? fun m => s.domReqOff (hbmDomain m) with
    | some m => s.fail h op stDomainOff (hbmDomain m)
    | none =>
      let j : CopyJob := { hdr := h, opcode := op, p := p, phase := 0, bytes := [], wait := [] }
      { s with host := { s.host with copies := s.host.copies ++ [j] } }.copyStart j

/-- COPY (R424): a source in host memory is read by PCIe reads, whose completions go on with the copy (R408). -/
def execCopy (h : CmdHdr) (srcHost dstHost : Bool) (src dst len : Nat) (s : State) : Res :=
  .next (s.onCmd h 0x0105 [(0, 1, b2n srcHost + 2 * b2n dstHost), (8, 8, src), (16, 8, dst), (24, 8, len)]
    fun s => s.copyBegin h 0x0105 { srcHost := srcHost, dstHost := dstHost, src := src, dst := dst, len := len, data := [] })

/-- The bytes of a FILL. -/
def fillBytes (pattern : Word) (len : Nat) : List Byte :=
  (List.range len).map fun i => BitVec.ofNat 8 (pattern.toNat >>> (8 * (i % 8)))

/-- FILL (R424). -/
def execFill (h : CmdHdr) (dst : Nat) (pattern : Word) (len : Nat) (s : State) : Res :=
  .next (s.onCmd h 0x0106 [(8, 8, dst), (16, 8, pattern.toNat), (24, 8, len)] fun s =>
    if len % 8 ≠ 0 then s.fail h 0x0106 stField 40
    else s.copyBegin h 0x0106 { srcHost := true, dstHost := false, src := 0, dst := dst, len := len, data := fillBytes pattern len })

end Sys2Proof.Machine
end

