-- ==== Sys2Proof/Machine/Arith.lean ====
section
/-! DEFINITION. IEEE arithmetic on binary32 and binary64 codes (R113–R116, R216–R219). Every operation answers a code and the
flags it raises; `dir` is the rounding direction. -/

namespace Sys2Proof.Machine

/-- A code and flags. -/
abbrev CodeFlags := Nat × Nat

/-- The result where an operand is a NaN: the first NaN operand, quieted; NV where any operand signals (R116). -/
def FpFmt.nanOf (F : FpFmt) (ops : List Num) : Option CodeFlags :=
  let nans := ops.filterMap fun x => match x with
    | .nan s sig pay => some (s, sig, pay)
    | _ => none
  match nans with
  | [] => none
  | n :: _ => some (F.nanCode n.1 n.2.2, if nans.any fun k => k.2.1 then fNV else 0)

/-- An invalid operation without a NaN operand (R116). -/
def FpFmt.invalid (F : FpFmt) : CodeFlags := (F.defNan, fNV)

def Num.neg : Num → Num
  | .fin s m e => .fin (!s) m e
  | .inf s => .inf (!s)
  | x => x

def Num.isZero : Num → Bool
  | .fin _ m _ => m = 0
  | _ => false

def Num.sign : Num → Bool
  | .nan s _ _ => s
  | .inf s => s
  | .fin s _ _ => s

/-- The exact sum of two finite values and its sign; an exact zero of unlike signs is +0, and −0 under RDN. -/
def sumExact (dir : Nat) (s1 : Bool) (m1 : Nat) (e1 : Int) (s2 : Bool) (m2 : Nat) (e2 : Int) : Bool × Nat × Int :=
  if m1 = 0 ∧ m2 = 0 then (if s1 = s2 then s1 else dir = 4, 0, 0)
  else if m1 = 0 then (s2, m2, e2)
  else if m2 = 0 then (s1, m1, e1)
  else
    let e := min e1 e2
    let a := m1 <<< (e1 - e).toNat
    let b := m2 <<< (e2 - e).toNat
    if s1 = s2 then (s1, a + b, e)
    else if a = b then (dir = 4, 0, 0)
    else if b < a then (s1, a - b, e) else (s2, b - a, e)

/-- Round an exact sum. -/
def FpFmt.roundSum (F : FpFmt) (dir : Nat) (r : Bool × Nat × Int) : CodeFlags := F.round dir r.1 r.2.1 r.2.2

/-- x + y (R216). -/
def FpFmt.add (F : FpFmt) (dir : Nat) (x y : Num) : CodeFlags :=
  match F.nanOf [x, y] with
  | some r => r
  | none => match x, y with
    | .inf s, .inf t => if s = t then (F.infCode s, 0) else F.invalid
    | .inf s, _ => (F.infCode s, 0)
    | _, .inf t => (F.infCode t, 0)
    | .fin s1 m1 e1, .fin s2 m2 e2 => F.roundSum dir (sumExact dir s1 m1 e1 s2 m2 e2)
    | _, _ => F.invalid

/-- x − y: a NaN operand keeps its sign (R116). -/
def FpFmt.sub (F : FpFmt) (dir : Nat) (x y : Num) : CodeFlags := F.add dir x y.neg

/-- x · y (R216). -/
def FpFmt.mul (F : FpFmt) (dir : Nat) (x y : Num) : CodeFlags :=
  match F.nanOf [x, y] with
  | some r => r
  | none => match x, y with
    | .fin s1 m1 e1, .fin s2 m2 e2 => F.round dir (s1 != s2) (m1 * m2) (e1 + e2)
    | _, _ => if x.isZero || y.isZero then F.invalid else (F.infCode (x.sign != y.sign), 0)

/-- (x · y) + z with one rounding (R216); (0 · ∞) + a quiet NaN raises NV and delivers the NaN (R116). -/
def FpFmt.fma (F : FpFmt) (dir : Nat) (x y z : Num) : CodeFlags :=
  let bad := match x, y with
    | .inf _, .fin _ 0 _ => true
    | .fin _ 0 _, .inf _ => true
    | _, _ => false
  match F.nanOf [x, y, z] with
  | some r => (r.1, if bad then r.2 ||| fNV else r.2)
  | none =>
    if bad then F.invalid
    else match x, y, z with
      | .fin s1 m1 e1, .fin s2 m2 e2, .fin s3 m3 e3 =>
        F.roundSum dir (sumExact dir (s1 != s2) (m1 * m2) (e1 + e2) s3 m3 e3)
      | .fin _ _ _, .fin _ _ _, .inf t => (F.infCode t, 0)
      | _, _, .inf t => if (x.sign != y.sign) = t then (F.infCode t, 0) else F.invalid
      | _, _, _ => (F.infCode (x.sign != y.sign), 0)

/-- x / y (R216). -/
def FpFmt.div (F : FpFmt) (dir : Nat) (x y : Num) : CodeFlags :=
  match F.nanOf [x, y] with
  | some r => r
  | none =>
    let s := x.sign != y.sign
    match x, y with
    | .inf _, .inf _ => F.invalid
    | .inf _, _ => (F.infCode s, 0)
    | _, .inf _ => (F.encode s 0 0, 0)
    | .fin _ m1 e1, .fin _ m2 e2 =>
      if m2 = 0 then (if m1 = 0 then F.invalid else (F.infCode s, fDZ))
      else
        let k := F.fb + 4 + Nat.log2 m2
        let n := m1 <<< k
        F.round dir s (2 * (n / m2) + b2n (decide (n % m2 ≠ 0))) (e1 - e2 - k - 1)
    | _, _ => F.invalid

/-- ⌊√n⌋, by bits from 2^b down. -/
def isqrtFrom : Nat → Nat → Nat → Nat
  | 0, n, r => if (r + 1) * (r + 1) ≤ n then r + 1 else r
  | b + 1, n, r => if (r + 2 ^ (b + 1)) * (r + 2 ^ (b + 1)) ≤ n then isqrtFrom b n (r + 2 ^ (b + 1)) else isqrtFrom b n r

/-- ⌊√n⌋. -/
def isqrt (n : Nat) : Nat := isqrtFrom (Nat.log2 n / 2 + 1) n 0

/-- √x (R216). -/
def FpFmt.sqrt (F : FpFmt) (dir : Nat) (x : Num) : CodeFlags :=
  match F.nanOf [x] with
  | some r => r
  | none => match x with
    | .inf false => (F.infCode false, 0)
    | .fin s m e =>
      if m = 0 then (F.encode s 0 0, 0)
      else if s then F.invalid
      else
        let k := 2 * (F.fb + 4) + (if e % 2 = 0 then 0 else 1)
        let n := m <<< k
        let r := isqrt n
        F.round dir false (2 * r + b2n (decide (r * r ≠ n))) ((e - k) / 2 - 1)
    | _ => F.invalid

/-- IEEE remainder, exact (R216). -/
def FpFmt.rem (F : FpFmt) (x y : Num) : CodeFlags :=
  match F.nanOf [x, y] with
  | some r => r
  | none => match x, y with
    | .fin s m e, .inf _ => F.round 0 s m e
    | .fin s m1 e1, .fin _ m2 e2 =>
      if m2 = 0 then F.invalid
      else
        let e := min e1 e2
        let a := m1 <<< (e1 - e).toNat
        let b := m2 <<< (e2 - e).toNat
        let n := a / b
        let r := a % b
        if 2 * r > b ∨ (2 * r = b ∧ n % 2 = 1) then F.round 0 (!s) (b - r) e else F.round 0 s r e
    | _, _ => F.invalid

/-- Whether one value that is no NaN lies below another; −0 equals +0. -/
def numLt (x y : Num) : Bool :=
  match x, y with
  | .inf s, .inf t => s && !t
  | .inf s, _ => s
  | _, .inf t => !t
  | .fin s1 m1 e1, .fin s2 m2 e2 =>
    if m1 = 0 ∧ m2 = 0 then false
    else if s1 = s2 then (if s1 then dyLt m2 e2 m1 e1 else dyLt m1 e1 m2 e2)
    else s1
  | _, _ => false

/-- The same, with −0 below +0. -/
def numLtZ (x y : Num) : Bool := numLt x y || (x.isZero && y.isZero && x.sign && !y.sign)

/-- Encode an operand unchanged. -/
def FpFmt.codeOf (F : FpFmt) : Num → Nat
  | .nan s _ pay => F.nanCode s pay
  | .inf s => F.infCode s
  | .fin s m e => F.encode s m e

/-- IEEE minimum or maximum (R216). -/
def FpFmt.minMax (F : FpFmt) (mx : Bool) (x y : Num) : CodeFlags :=
  match F.nanOf [x, y] with
  | some r => r
  | none => (F.codeOf (if numLtZ x y != mx then x else y), 0)

def Num.isNan : Num → Bool
  | .nan _ _ _ => true
  | _ => false

/-- IEEE minimumNumber or maximumNumber (R216). -/
def FpFmt.minMaxNum (F : FpFmt) (mx : Bool) (x y : Num) : CodeFlags :=
  match F.nanOf [x, y] with
  | none => F.minMax mx x y
  | some r =>
    if x.isNan && y.isNan then r
    else (F.codeOf (if x.isNan then y else x), r.2)

/-- roundToIntegral in a direction; `exact` raises NX (R216). -/
def FpFmt.rint (F : FpFmt) (dir : Nat) (exact : Bool) (x : Num) : CodeFlags :=
  match F.nanOf [x] with
  | some r => r
  | none => match x with
    | .fin s m e =>
      let r := roundAt dir s m e 0
      if 0 ≤ e then (F.encode s m e, 0) else (F.encode s r.1 0, if exact && r.2 then fNX else 0)
    | x => (F.codeOf x, 0)

/-- x · 2^n (R216); beyond ±5,000 an exponent changes no result. -/
def FpFmt.scaleb (F : FpFmt) (dir : Nat) (x : Num) (n : Int) : CodeFlags :=
  match F.nanOf [x] with
  | some r => r
  | none => match x with
    | .fin s m e => F.round dir s m (e + max (-5000) (min 5000 n))
    | x => (F.codeOf x, 0)

/-- logB as a signed integer of w bits; the result for a NaN is one of the two extremes, which of them is free
(R216). -/
def logbInt (w : Nat) (free : Bool) (x : Num) : CodeFlags :=
  let lo := 2 ^ (w - 1)
  let hi := 2 ^ (w - 1) - 1
  match x with
  | .nan _ _ _ => (if free then lo else hi, fNV)
  | .inf _ => (hi, fNV)
  | .fin _ m e =>
    if m = 0 then (lo, fNV) else ((((Nat.log2 m : Int) + e) % ((2 ^ w : Nat) : Int)).toNat, 0)

/-- nextUp or nextDown on a code (R216). -/
def FpFmt.next (F : FpFmt) (down : Bool) (code : Nat) : CodeFlags :=
  let x := F.decode code
  match F.nanOf [x] with
  | some r => r
  | none =>
    let sb := 2 ^ (F.eb + F.fb)
    let mag := code % sb
    let neg := x.sign
    if mag = 0 then ((if down then sb else 0) + 1, 0)
    else if neg = down then (if mag = F.infCode false then code else code + 1, 0)
    else (code - 1, 0)

/-- VCMP (R218): predicate bits 2:0, signalling bit 3. Whether it holds, and the flags. -/
def fpCompare (sub : Nat) (x y : Num) : Bool × Nat :=
  let sigs := match x, y with
    | .nan _ true _, _ => true
    | _, .nan _ true _ => true
    | _, _ => false
  let un := x.isNan || y.isNan
  let lt := !un && numLt x y
  let gt := !un && numLt y x
  let eq := !un && !lt && !gt
  let holds := match sub % 8 with
    | 0 => eq
    | 1 => lt
    | 2 => lt || eq
    | 3 => un
    | 4 => !eq
    | 5 => gt || eq
    | 6 => gt
    | _ => !un
  (holds, if sigs || (un && sub ≥ 8) then fNV else 0)

/-- The class bit of a code (R218). -/
def FpFmt.classOf (F : FpFmt) (code : Nat) : Nat :=
  match F.decode code with
  | .nan _ sig _ => if sig then 1 else 2
  | .inf s => if s then 4 else 512
  | .fin s m _ =>
    let normal := decide (bits code F.fb F.eb ≠ 0)
    if m = 0 then (if s then 32 else 64)
    else if s then (if normal then 8 else 16) else (if normal then 256 else 128)

/-- VSGN (R216): 0 copy, 1 negate, 2 abs, 3 copySign. -/
def FpFmt.sgn (F : FpFmt) (sub : Nat) (a b : Nat) : Nat :=
  let sb := 2 ^ (F.eb + F.fb)
  match sub with
  | 0 => a
  | 1 => if a < sb then a + sb else a - sb
  | 2 => a % sb
  | _ => a % sb + b / sb * sb

end Sys2Proof.Machine
end

