-- ==== Sys2Proof/Machine/Special.lean ====
section
/-! DEFINITION. The special functions of VSF (R220) and the Gumbel transform (R163). Real functions are taken in fixed point
with 640 fraction bits; a result of VSF is one of the binary32 values within its bound, which of them is free. -/

namespace Sys2Proof.Machine

/-- Fraction bits of the fixed-point values. -/
def fxBits : Nat := 640
def fxOne : Nat := 2 ^ fxBits

/-- Σ z^(2i+1) / (2i+1) with z in fixed point: atanh z. -/
def atanhSum : Nat → Nat → Nat → Nat → Nat
  | 0, _, _, _ => 0
  | n + 1, i, p, z2 => p / (2 * i + 1) + atanhSum n (i + 1) (p * z2 / fxOne) z2

/-- atanh of z ≤ 1/3 in fixed point. -/
def atanhFx (z : Nat) : Nat := atanhSum 210 0 z (z * z / fxOne)

/-- ln 2. -/
def ln2Fx : Nat := 2 * atanhFx (fxOne / 3)

/-- ln(m · 2^e) for m > 0, in fixed point. -/
def lnFx (m : Nat) (e : Int) : Int :=
  let k := Nat.log2 m
  let t := m * fxOne / 2 ^ k
  ((k : Int) + e) * (ln2Fx : Int) + 2 * (atanhFx ((t - fxOne) * fxOne / (t + fxOne)) : Nat)

/-- Σ r^i / i! from term i on, `p` the current term. -/
def expSum : Nat → Nat → Nat → Nat → Nat
  | 0, _, _, _ => 0
  | n + 1, i, p, r => p + expSum n (i + 1) (p * r / fxOne / (i + 1)) r

/-- e^x for x in fixed point: a significand in fixed point and a power of two. -/
def expFx (x : Int) : Nat × Int :=
  let n := x / (ln2Fx : Int)
  let r := (x - n * (ln2Fx : Int)).toNat
  (expSum 140 0 fxOne r, n)

/-- m · 2^e in fixed point. -/
def toFx (m : Nat) (e : Int) : Nat := shiftInt m (e + fxBits)

/-- The Gumbel transform of a 24-bit uniform: −ln(−ln v) with v = (2u + 1) · 2^−25, rounded to binary32 (R163). -/
def gumbel (u : Nat) : Nat :=
  let a := (-(lnFx (2 * u + 1) (-25))).toNat
  let g := -(lnFx a (-(fxBits : Int)))
  (fmtB32.round 0 (decide (g < 0)) g.natAbs (-(fxBits : Int))).1

/-- The places on the grid of `down`, counted from it, that lie within a bound of the exact value: `b2` is the bound in
half ulp, `lowHalf` says that the value lies in the lower half of its interval. -/
def ulpOffsets (b2 : Nat) (lowHalf : Bool) : List Int :=
  match b2 with
  | 2 => [0, 1]
  | 3 => if lowHalf then [-1, 0, 1] else [0, 1, 2]
  | _ => [-1, 0, 1, 2]

/-- A result within a bound of the inexact value m · 2^e, chosen by a free number; overflow and underflow as R115 and
R220. -/
def withinUlp (s : Bool) (m : Nat) (e : Int) (b2 free : Nat) : CodeFlags :=
  let F := fmtB32
  let q := max ((Nat.log2 m : Int) + e - F.fb) F.qmin
  let n := shiftInt m (e - q)
  let low := decide (dyLt m e (2 * n + 1) (q - 1))
  let offs := (ulpOffsets b2 low).filter fun o => decide (0 ≤ (n : Int) + o)
  let r := ((n : Int) + offs.getD (free % offs.length) 0).toNat
  if dyLt F.maxFin.1 F.maxFin.2 r q then (F.infCode s, fOF + fNX)
  else (F.encode s r q, if dyLt r q 1 F.emin then fUF + fNX else fNX)

/-- An exact result, or one within the bound: the exact value is m · 2^e with bits beyond it lost where `lost`. -/
def exactOr (s : Bool) (m : Nat) (e : Int) (lost : Bool) (b2 free : Nat) : CodeFlags :=
  let r := fmtB32.round 2 s m e
  if ¬ lost ∧ r.2 = 0 then r else withinUlp s m e b2 free

/-- A power of two. -/
def isPow2 (m : Nat) : Bool := m ≠ 0 && m = 2 ^ Nat.log2 m

/-- VSF on one lane (R220). -/
def specialFn (fn : Nat) (x : Num) (free : Nat) : CodeFlags :=
  let F := fmtB32
  let one := 0x3F800000
  match F.nanOf [x] with
  | some r => r
  | none =>
    match fn, x with
    | 0, .inf s => (if s then 0 else F.infCode false, 0)
    | 0, .fin s m e =>
      if m = 0 then (one, 0)
      else
        let v : Int := if dyLt 200 0 m e then 200 * (fxOne : Int) else (toFx m e : Int)
        let r := expFx (if s then -v else v)
        withinUlp false r.1 (r.2 - fxBits) 3 free
    | 1, .inf s => if s then F.invalid else (F.infCode false, 0)
    | 1, .fin s m e =>
      if m = 0 then (F.infCode true, fDZ)
      else if s then F.invalid
      else
        let r := lnFx m e
        if isPow2 m ∧ (Nat.log2 m : Int) + e = 0 then (0, 0)
        else withinUlp (decide (r < 0)) r.natAbs (-(fxBits : Int)) 3 free
    | 2, .inf s => (F.encode s 0 0, 0)
    | 2, .fin s m e =>
      if m = 0 then (F.infCode s, fDZ)
      else
        let k := 64 + Nat.log2 m
        let n := 2 ^ k / m
        if isPow2 m then exactOr s n (-e - k) false 2 free else withinUlp s (2 * n + 1) (-e - k - 1) 2 free
    | 3, .inf s => if s then F.invalid else (0, 0)
    | 3, .fin s m e =>
      if m = 0 then (F.infCode s, fDZ)
      else if s then F.invalid
      else
        let e0 := e % 2
        let d := m * 2 ^ e0.toNat
        let n := isqrt (2 ^ 200 / d)
        let h := (e - e0) / 2
        if isPow2 d ∧ Nat.log2 d % 2 = 0 then exactOr false n (-100 - h) false 2 free
        else withinUlp false (2 * n + 1) (-101 - h) 2 free
    | 4, .inf s => (F.encode s 1 0, 0)
    | 4, .fin s m e =>
      if m = 0 then (F.encode s 0 0, 0)
      else
        let v : Nat := if dyLt 100 0 m e then 100 * fxOne else toFx m e
        let r := expFx (-(2 * (v : Int)))
        let t := shiftInt r.1 r.2
        withinUlp s ((fxOne - t) * fxOne / (fxOne + t)) (-(fxBits : Int)) 4 free
    | _, .inf s => (if s then 0 else one, 0)
    | _, .fin s m e =>
      if m = 0 then (0x3F000000, 0)
      else
        let v : Nat := if dyLt 200 0 m e then 200 * fxOne else toFx m e
        let r := expFx (-(v : Int))
        let t := shiftInt r.1 r.2
        if s then withinUlp false (t * fxOne / (fxOne + t)) (-(fxBits : Int)) 4 free
        else withinUlp false (fxOne * fxOne / (fxOne + t)) (-(fxBits : Int)) 4 free
    | _, _ => F.invalid

end Sys2Proof.Machine
end

