-- ==== Sys2Proof/Machine/Vector.lean ====
section
/-! DEFINITION. Stylus's register instructions (R214–R220): their issue, with the fields checked in D (R204, R215), and what
each lane becomes when they finish. -/

namespace Sys2Proof.Machine

/-! ### Lanes (R214, R215) -/

def laneCount (ty : BitVec 2) : Nat := if ty.getLsbD 0 then 16 else 32
def typeFmt (ty : BitVec 2) : FpFmt := if ty.getLsbD 0 then fmtB64 else fmtB32

def laneOf (d : BitVec 1024) (w i : Nat) : Nat := bits d.toNat (w * i) w
def packLanes (w : Nat) (l : List Nat) : BitVec 1024 :=
  BitVec.ofNat 1024 (l.foldr (fun v a => v % 2 ^ w + 2 ^ w * a) 0)

/-- A vector result: the register's value, the flags, and how many free values it took. -/
structure VecRes where
  data : BitVec 1024
  flags : Nat
  took : Nat

/-- Lane by lane under the mask: a lane whose mask bit is clear keeps its value and raises no flag (R215). -/
def Tile.vecLanes (x : Tile) (f : VecF) (g : Nat → CodeFlags) : VecRes :=
  let w := laneBits f.ty
  let rs := (List.range (laneCount f.ty)).map fun i =>
    if f.mv && !(laneOf (x.vreg f.vm) w i).testBit 0 then (laneOf (x.vreg f.vd) w i, 0) else g i
  { data := packLanes w (rs.map (·.1)), flags := orFlags rs, took := 0 }

/-- An operation on the lanes of the three sources. -/
def Tile.vecOp (x : Tile) (f : VecF) (g : Nat → Nat → Nat → CodeFlags) : VecRes :=
  let w := laneBits f.ty
  x.vecLanes f fun i => g (laneOf (x.vreg f.va) w i) (laneOf (x.vreg f.vb) w i) (laneOf (x.vreg f.vc) w i)

/-- A floating-point operation on decoded lanes. -/
def Tile.fpOp (x : Tile) (f : VecF) (g : FpFmt → Num → Num → Num → CodeFlags) : VecRes :=
  let F := typeFmt f.ty
  x.vecOp f fun a b c => g F (F.decode a) (F.decode b) (F.decode c)

/-- An integer operation; it raises no flag. -/
def Tile.intOp (x : Tile) (f : VecF) (g : Nat → Nat → Nat → Nat) : VecRes :=
  x.vecOp f fun a b _ => (g (laneBits f.ty) a b, 0)

/-- All ones or zero. -/
def allOnes (w : Nat) (b : Bool) : Nat := if b then 2 ^ w - 1 else 0

/-- A direction field of VRINT and VCVTR: 7 is T_FPCSR.RM (R216). -/
def dirField (sub : Nat) (rm : Nat) : Nat := if sub % 8 = 7 then rm else sub % 8

/-- VICMP's predicates (R216). -/
def intPred (sub w a b : Nat) : Bool :=
  let sa := sintOf w a
  let sb := sintOf w b
  match sub with
  | 0 => a = b
  | 1 => sa < sb
  | 2 => sa ≤ sb
  | 3 => a < b
  | 4 => a ≠ b
  | 5 => sb ≤ sa
  | 6 => sb < sa
  | _ => b ≤ a

/-- The smaller or larger integer, signed or not. -/
def intMinMax (mx unsigned : Bool) (w a b : Nat) : Nat :=
  let lt := if unsigned then decide (a < b) else decide (sintOf w a < sintOf w b)
  if lt != mx then a else b

/-- The fixed tree of R219: lanes i and i + L/2, until one remains. -/
def treeReduce (g : Nat → Nat → CodeFlags) : Nat → List Nat → CodeFlags
  | 0, l => (l.headD 0, 0)
  | n + 1, l =>
    let h := l.length / 2
    let rs := List.zipWith g (l.take h) (l.drop h)
    let r := treeReduce g n (rs.map (·.1))
    (r.1, r.2 ||| orFlags rs)

/-- VRED (R219). The maximum and minimum of floating-point lanes take the lanes in order, so that the first NaN lane is
the result (R116). -/
def Tile.vred (x : Tile) (f : VecF) (rm : Nat) : VecRes :=
  let w := laneBits f.ty
  let F := typeFmt f.ty
  let n := laneCount f.ty
  let l := (List.range n).map fun i => laneOf (x.vreg f.va) w i
  let depth := if n = 32 then 5 else 4
  let mx := decide (f.sub = 1)
  let r : CodeFlags :=
    if typeFloat f.ty then
      (if f.sub = 0 then treeReduce (fun a b => F.add rm (F.decode a) (F.decode b)) depth l
       else match F.nanOf (l.map F.decode) with
         | some r => r
         | none => treeReduce (fun a b => F.minMax mx (F.decode a) (F.decode b)) depth l)
    else if f.sub = 0 then (l.sum % 2 ^ w, 0)
    else treeReduce (fun a b => (intMinMax mx false w a b, 0)) depth l
  { data := BitVec.ofNat 1024 r.1, flags := r.2, took := 0 }

/-- One lane of VCVTR (R217). -/
def cvtLane (styp dtyp : BitVec 2) (sub rm : Nat) (a : Nat) : CodeFlags :=
  let wd := laneBits dtyp
  let D := typeFmt dtyp
  match typeFloat styp, typeFloat dtyp with
  | true, true => D.convert (.dir rm) false ((typeFmt styp).decode a)
  | false, true => D.convert (.dir rm) false (intDecode (laneBits styp) a)
  | true, false =>
    let r := intConvert wd (.dir (dirField sub rm)) ((typeFmt styp).decode a)
    (r.1, if sub ≥ 8 then r.2 else r.2 &&& fNV)
  | false, false => ((sintOf (laneBits styp) a % ((2 ^ wd : Nat) : Int)).toNat, 0)

/-- VCVTR (R217): widening reads, and narrowing writes, the half that HALF names. -/
def Tile.vcvtr (x : Tile) (f : VecF) (styp : BitVec 2) (half : Bool) (rm : Nat) : VecRes :=
  let ws := laneBits styp
  let wd := laneBits f.ty
  let h := 16 * b2n half
  let conv (j : Nat) : CodeFlags := cvtLane styp f.ty f.sub.toNat rm (laneOf (x.vreg f.va) ws j)
  x.vecLanes f fun i =>
    if ws < wd then conv (h + i)
    else if wd < ws then (if h ≤ i ∧ i < h + 16 then conv (i - h) else (laneOf (x.vreg f.vd) wd i, 0))
    else conv i

/-- The result of a Stylus register instruction (R216–R220); `free` gives the free values. Instructions that are not of
this kind answer their destination unchanged. -/
def Tile.vecResult (x : Tile) (o : EngOp) (free : Nat → Nat) : VecRes :=
  let rm := o.rm.toNat
  match o.ins with
  | .vadd _ _ f => x.fpOp f fun F a b _ => F.add rm a b
  | .vsub _ _ f => x.fpOp f fun F a b _ => F.sub rm a b
  | .vmul _ _ f => x.fpOp f fun F a b _ => F.mul rm a b
  | .vdiv _ _ f => x.fpOp f fun F a b _ => F.div rm a b
  | .vsqrt _ _ f => x.fpOp f fun F a _ _ => F.sqrt rm a
  | .vfma _ _ f => x.fpOp f fun F a b c => F.fma rm a b c
  | .vfms _ _ f => x.fpOp f fun F a b c => F.fma rm a b c.neg
  | .vfnma _ _ f => x.fpOp f fun F a b c => F.fma rm a.neg b c
  | .vrem _ _ f => x.fpOp f fun F a b _ => F.rem a b
  | .vmin _ _ f => x.fpOp f fun F a b _ => F.minMax false a b
  | .vmax _ _ f => x.fpOp f fun F a b _ => F.minMax true a b
  | .vminnum _ _ f => x.fpOp f fun F a b _ => F.minMaxNum false a b
  | .vmaxnum _ _ f => x.fpOp f fun F a b _ => F.minMaxNum true a b
  | .vrint _ _ f => x.fpOp f fun F a _ _ => F.rint (dirField f.sub.toNat rm) (f.sub.getLsbD 3) a
  | .vscaleb _ _ f =>
    x.vecOp f fun a b _ => (typeFmt f.ty).scaleb rm ((typeFmt f.ty).decode a) (sintOf (laneBits f.ty) b)
  | .vlogb _ _ f =>
    { x.vecLanes f (fun i => logbInt (laneBits f.ty) ((free i).testBit 0)
        ((typeFmt f.ty).decode (laneOf (x.vreg f.va) (laneBits f.ty) i))) with took := 32 }
  | .vnext _ _ f => x.vecOp f fun a _ _ => (typeFmt f.ty).next (f.sub = 1) a
  | .vcmp _ _ f => x.fpOp f fun _ a b _ =>
      let r := fpCompare f.sub.toNat a b
      (allOnes (laneBits f.ty) r.1, r.2)
  | .vclass _ _ f => x.vecOp f fun a _ _ => ((typeFmt f.ty).classOf a, 0)
  | .vsgn _ _ f => x.vecOp f fun a b _ => ((typeFmt f.ty).sgn f.sub.toNat a b, 0)
  | .vcvtr _ _ f styp half => x.vcvtr f styp half rm
  | .viadd _ _ f => x.intOp f fun w a b => (a + b) % 2 ^ w
  | .visub _ _ f => x.intOp f fun w a b => (a + (2 ^ w - b)) % 2 ^ w
  | .vimul _ _ f => x.intOp f fun w a b => a * b % 2 ^ w
  | .vand _ _ f => x.intOp f fun _ a b => a &&& b
  | .vor _ _ f => x.intOp f fun _ a b => a ||| b
  | .vxor _ _ f => x.intOp f fun _ a b => a ^^^ b
  | .vshl _ _ f => x.intOp f fun w a b => (a <<< (b % w)) % 2 ^ w
  | .vshr _ _ f => x.intOp f fun w a b =>
      if f.sub = 1 then (sintOf w a / ((2 ^ (b % w) : Nat) : Int) % ((2 ^ w : Nat) : Int)).toNat else a >>> (b % w)
  | .vimin _ _ f => x.intOp f fun w a b => intMinMax false (f.sub = 1) w a b
  | .vimax _ _ f => x.intOp f fun w a b => intMinMax true (f.sub = 1) w a b
  | .vicmp _ _ f => x.intOp f fun w a b => allOnes w (intPred f.sub.toNat w a b)
  | .vsel _ _ f => x.vecOp f fun a b c => (if c.testBit 0 then a else b, 0)
  | .vsplat _ _ f => x.vecLanes f fun _ => ((o.regs.getD 0 0).toNat % 2 ^ laneBits f.ty, 0)
  | .vperm _ _ f => x.vecLanes f fun i =>
      let w := laneBits f.ty
      (laneOf (x.vreg f.va) w (laneOf (x.vreg f.vb) w i % laneCount f.ty), 0)
  | .vred _ _ f => x.vred f rm
  | .vsf _ _ f =>
    { x.vecLanes f (fun i => specialFn f.sub.toNat (fmtB32.decode (laneOf (x.vreg f.va) 32 i)) (free i)) with
      took := 32 }
  | .vgumbel _ _ _ _ _ =>
    { data := packLanes 32 ((List.range 32).map fun i =>
        gumbel (drawU24 o.key (o.regs.getD 0 0) (o.regs.getD 1 0 + BitVec.ofNat 64 i)))
      flags := 0, took := 0 }
  | _ => { data := 0, flags := 0, took := 0 }

/-! ### Issue -/

def execVadd (t : TileId) (w : WaitSig) (f : VecF) (s : State) : Res := s.issueEng t 2 (.vadd t w f) []
def execVsub (t : TileId) (w : WaitSig) (f : VecF) (s : State) : Res := s.issueEng t 2 (.vsub t w f) []
def execVmul (t : TileId) (w : WaitSig) (f : VecF) (s : State) : Res := s.issueEng t 2 (.vmul t w f) []
def execVdiv (t : TileId) (w : WaitSig) (f : VecF) (s : State) : Res := s.issueEng t 2 (.vdiv t w f) []
def execVsqrt (t : TileId) (w : WaitSig) (f : VecF) (s : State) : Res :=
  s.issueEng t 2 (.vsqrt t w f) []
def execVfma (t : TileId) (w : WaitSig) (f : VecF) (s : State) : Res := s.issueEng t 2 (.vfma t w f) []
def execVfms (t : TileId) (w : WaitSig) (f : VecF) (s : State) : Res := s.issueEng t 2 (.vfms t w f) []
def execVfnma (t : TileId) (w : WaitSig) (f : VecF) (s : State) : Res := s.issueEng t 2 (.vfnma t w f) []
def execVrem (t : TileId) (w : WaitSig) (f : VecF) (s : State) : Res := s.issueEng t 2 (.vrem t w f) []
def execVmin (t : TileId) (w : WaitSig) (f : VecF) (s : State) : Res := s.issueEng t 2 (.vmin t w f) []
def execVmax (t : TileId) (w : WaitSig) (f : VecF) (s : State) : Res := s.issueEng t 2 (.vmax t w f) []
def execVminnum (t : TileId) (w : WaitSig) (f : VecF) (s : State) : Res :=
  s.issueEng t 2 (.vminnum t w f) []
def execVmaxnum (t : TileId) (w : WaitSig) (f : VecF) (s : State) : Res :=
  s.issueEng t 2 (.vmaxnum t w f) []
def execVrint (t : TileId) (w : WaitSig) (f : VecF) (s : State) : Res :=
  s.issueEng t 2 (.vrint t w f) []
def execVscaleb (t : TileId) (w : WaitSig) (f : VecF) (s : State) : Res :=
  s.issueEng t 2 (.vscaleb t w f) []
def execVlogb (t : TileId) (w : WaitSig) (f : VecF) (s : State) : Res :=
  s.issueEng t 2 (.vlogb t w f) []
def execVnext (t : TileId) (w : WaitSig) (f : VecF) (s : State) : Res :=
  s.issueEng t 2 (.vnext t w f) []
def execVcmp (t : TileId) (w : WaitSig) (f : VecF) (s : State) : Res :=
  s.issueEng t 2 (.vcmp t w f) []
def execVclass (t : TileId) (w : WaitSig) (f : VecF) (s : State) : Res :=
  s.issueEng t 2 (.vclass t w f) []
def execVsgn (t : TileId) (w : WaitSig) (f : VecF) (s : State) : Res :=
  s.issueEng t 2 (.vsgn t w f) []
def execVcvtr (t : TileId) (w : WaitSig) (f : VecF) (stype : BitVec 2) (half : Bool) (s : State) : Res :=
  s.issueEng t 2 (.vcvtr t w f stype half) []
def execViadd (t : TileId) (w : WaitSig) (f : VecF) (s : State) : Res := s.issueEng t 2 (.viadd t w f) []
def execVisub (t : TileId) (w : WaitSig) (f : VecF) (s : State) : Res := s.issueEng t 2 (.visub t w f) []
def execVimul (t : TileId) (w : WaitSig) (f : VecF) (s : State) : Res := s.issueEng t 2 (.vimul t w f) []
def execVand (t : TileId) (w : WaitSig) (f : VecF) (s : State) : Res := s.issueEng t 2 (.vand t w f) []
def execVor (t : TileId) (w : WaitSig) (f : VecF) (s : State) : Res := s.issueEng t 2 (.vor t w f) []
def execVxor (t : TileId) (w : WaitSig) (f : VecF) (s : State) : Res := s.issueEng t 2 (.vxor t w f) []
def execVshl (t : TileId) (w : WaitSig) (f : VecF) (s : State) : Res := s.issueEng t 2 (.vshl t w f) []
def execVshr (t : TileId) (w : WaitSig) (f : VecF) (s : State) : Res := s.issueEng t 2 (.vshr t w f) []
def execVimin (t : TileId) (w : WaitSig) (f : VecF) (s : State) : Res := s.issueEng t 2 (.vimin t w f) []
def execVimax (t : TileId) (w : WaitSig) (f : VecF) (s : State) : Res := s.issueEng t 2 (.vimax t w f) []
def execVicmp (t : TileId) (w : WaitSig) (f : VecF) (s : State) : Res := s.issueEng t 2 (.vicmp t w f) []
def execVsel (t : TileId) (w : WaitSig) (f : VecF) (s : State) : Res :=
  s.issueEng t 2 (.vsel t w f) []
def execVsplat (t : TileId) (w : WaitSig) (f : VecF) (s : State) : Res :=
  s.issueEng t 2 (.vsplat t w f) [f.va]
def execVperm (t : TileId) (w : WaitSig) (f : VecF) (s : State) : Res :=
  s.issueEng t 2 (.vperm t w f) []
def execVred (t : TileId) (w : WaitSig) (f : VecF) (s : State) : Res :=
  s.issueEng t 2 (.vred t w f) []
def execVsf (t : TileId) (w : WaitSig) (f : VecF) (s : State) : Res :=
  s.issueEng t 2 (.vsf t w f) []
def execVgumbel (t : TileId) (w : WaitSig) (vd rt re : RegNo) (s : State) : Res :=
  s.issueEng t 2 (.vgumbel t w vd rt re) [rt, re]

end Sys2Proof.Machine
end

