-- ==== Sys2Proof/Machine/Bulk.lean ====
section
/-! DEFINITION. Stylus's memory and bulk instructions (R221–R225): their issue, their scratchpad footprints (R206), and their
effects. -/

namespace Sys2Proof.Machine

/-! ### Reading and writing for an engine (R56, R85, R100) -/

/-- A run of bytes: relative address and length. -/
abbrev Span := Nat × Nat

/-- What an engine instruction leaves: the state, its flags, and the uncorrectable word that stopped it, if one did. -/
structure EngOut where
  st : State
  flags : Nat
  ue : Option Nat

/-- The bytes of some runs, in order. -/
def Tile.gather (x : Tile) (c : Bool) (l : List Span) : List Byte := l.flatMap fun r => x.read (x.phys c r.1) r.2

/-- The first uncorrectable word among some runs. -/
def Tile.gatherUe (x : Tile) (c : Bool) (l : List Span) : Option Nat := l.findSome? fun r => x.badWord (x.phys c r.1) r.2

/-- Count the single-bit errors that a read of some runs corrects. -/
def State.gatherCe (s : State) (t : TileId) (c : Bool) (l : List Span) : State :=
  let x := s.tile t
  s.countCe t (l.map fun r => x.singles (x.phys c r.1) r.2).sum

/-- Read some runs and go on with their bytes, or stop at an uncorrectable word. -/
def State.engRead (s : State) (t : TileId) (c : Bool) (l : List Span) (f : State → List Byte → EngOut) : EngOut :=
  let x := s.tile t
  match x.gatherUe c l with
  | some w => { st := s, flags := 0, ue := some w }
  | none => f (s.gatherCe t c l) (x.gather c l)

/-- Write bytes at a relative address. -/
def State.engWrite (s : State) (t : TileId) (c : Bool) (a : Nat) (l : List Byte) : State :=
  s.spWrite t ((s.tile t).phys c a) l

def EngOut.done (s : State) (flags : Nat := 0) : EngOut := { st := s, flags := flags, ue := none }

/-- An operand captured in D, as a natural. -/
def EngOp.arg (o : EngOp) (i : Nat) : Nat := (o.regs.getD i 0).toNat

/-- An address rounded down to a multiple of n. -/
def alignTo (n a : Nat) : Nat := a / n * n

/-! ### Vector memory (R221) -/

/-- The runs that VLD reads with CRM = 0, in the order of its result's bytes (R87, R89, R221). -/
def vldSpans (f : VldF) (ra rb : Nat) : List Span :=
  match f.form.toNat with
  | 0 => [(alignTo 128 ra, 128)]
  | 1 =>
    let k := max 1 (bits rb 0 14)
    (List.range 64).map fun r => (alignTo 2 ra + 128 * k * r, 2)
  | 2 =>
    let k := max 1 (bits rb 0 14)
    (List.range 64).map (fun r => (alignTo 2 ra + 128 * k * r, 1)) ++
      (List.range 64).map (fun r => (alignTo 2 ra + 1 + 128 * k * r, 1))
  | _ =>
    let e := 2 ^ f.esize.toNat
    let d := max e (alignTo e (bits rb 0 21))
    (List.range (128 / e)).map fun i => (alignTo e ra + i * d, e)

/-- A pop of n bytes by an engine: the bytes, zero when refused. -/
def State.engPop (s : State) (t : TileId) (c : Bool) (cr n : Nat) (f : State → List Byte → EngOut) : EngOut :=
  let r := ((s.ctx t c).cr cr).pop n
  let s := s.modCtx t c fun y => y.setCr cr r.2
  match r.1 with
  | some a => s.engRead t c [(a, n)] f
  | none => f s (List.replicate n 0)

/-- A push of bytes by an engine. -/
def State.engPush (s : State) (t : TileId) (c : Bool) (cr : Nat) (l : List Byte) : State :=
  let r := ((s.ctx t c).cr cr).push l.length
  let s := s.modCtx t c fun y => y.setCr cr r.2
  match r.1 with
  | some a => s.engWrite t c a l
  | none => s

def State.setVec (s : State) (t : TileId) (vd : RegNo) (d : BitVec 1024) : State := s.modTile t fun x => x.setVreg vd d

/-- VLD. -/
def State.vldEffect (s : State) (t : TileId) (o : EngOp) (f : VldF) : EngOut :=
  let put (s : State) (l : List Byte) : EngOut := .done (s.setVec t f.vd (BitVec.ofNat 1024 (leNat l)))
  if f.crm then s.engPop t o.ctx f.cr.toNat 128 put
  else s.engRead t o.ctx (vldSpans f (o.arg 0) (o.arg 1)) put

/-- VST. -/
def State.vstEffect (s : State) (t : TileId) (o : EngOp) (vs : RegNo) (crm : Bool) (cr : BitVec 4) : EngOut :=
  let l := leBytes 128 ((s.tile t).vreg vs).toNat
  .done (if crm then s.engPush t o.ctx cr.toNat l else s.engWrite t o.ctx (alignTo 128 (o.arg 0)) l)

/-- VLDL: one 64-bit lane. -/
def State.vldlEffect (s : State) (t : TileId) (o : EngOp) (v : RegNo) (lane : BitVec 5) (crm : Bool) (cr : BitVec 4) :
    EngOut :=
  let put (s : State) (l : List Byte) : EngOut :=
    let old := (s.tile t).vreg v
    .done (s.setVec t v (packLanes 64 ((List.range 16).map fun i =>
      if i = lane.toNat then leNat l else laneOf old 64 i)))
  if crm then s.engPop t o.ctx cr.toNat 8 put else s.engRead t o.ctx [(alignTo 8 (o.arg 0), 8)] put

/-- VSTL. -/
def State.vstlEffect (s : State) (t : TileId) (o : EngOp) (v : RegNo) (lane : BitVec 5) (crm : Bool) (cr : BitVec 4) :
    EngOut :=
  let l := leBytes 8 (laneOf ((s.tile t).vreg v) 64 lane.toNat)
  .done (if crm then s.engPush t o.ctx cr.toNat l else s.engWrite t o.ctx (alignTo 8 (o.arg 0)) l)

/-- VSTG (R226). -/
def State.vstgEffect (s : State) (t : TileId) (vd line : RegNo) : EngOut :=
  .done (s.setVec t vd (SMap.get 0 (s.tile t).staging line.toNat))

/-! ### VCVT (R222) -/

/-- Elements in a 128-byte line of a format (R108). -/
def perLine (w : Nat) : Nat := if w = 6 then 128 else 1024 / w

/-- VCVT's addresses: source and destination arrays and plates. -/
structure CvtAddr where
  n : Nat
  src : Span
  dst : Span
  splate : Span
  dplate : Span

def cvtAddr (f : VcvtF) (o : EngOp) : CvtAddr :=
  let n := bits (o.arg 2) 0 32
  let g := ceilDiv n 32
  { n := n
    src := (alignTo 128 (o.arg 0), lineBytes (elemOf f.sfmt.toNat).width n)
    dst := (alignTo 128 (o.arg 1), lineBytes (elemOf f.dfmt.toNat).width n)
    splate := (bits (o.arg 3) 0 21, if isGroup f.sfmt.toNat then g else 0)
    dplate := (bits (o.arg 3) 32 21, if isGroup f.dfmt.toNat then g else 0) }

/-- The conversion that VCVT names. -/
def cvtArgs (f : VcvtF) (o : EngOp) : ConvArgs :=
  { sfmt := f.sfmt.toNat, dfmt := f.dfmt.toNat, sat := f.sat
    supply := if isGroup f.dfmt.toNat && (o.arg 3).testBit 63 then some (bits (o.arg 3) 55 8) else none
    mode := convMode f.mode.toNat o.rm.toNat f.dfmt.toNat o.key (o.regs.getD 4 0) (o.regs.getD 5 0) }

/-- Bytes of a span split into 128-byte lines. -/
def spanLines (p : Span) : List Span := (List.range (p.2 / 128)).map fun i => (p.1 + 128 * i, 128)

/-- The number of leading elements that depend on no uncorrectable word (R100): up to the first bad source line and the
first group with a bad plate. -/
def Tile.cvtGood (x : Tile) (c : Bool) (a : CvtAddr) (w : Nat) : Nat × Option Nat :=
  let lines := (numbered 0 (spanLines a.src)).findSome? fun l =>
    (x.badWord (x.phys c l.2.1) 128).map fun b => (l.1 * perLine w, b)
  let plates := (List.range a.splate.2).findSome? fun g =>
    (x.badWord (x.phys c (a.splate.1 + g)) 1).map fun b => (32 * g, b)
  match lines, plates with
  | none, none => (a.n, none)
  | some l, none => (l.1, some l.2)
  | none, some p => (p.1, some p.2)
  | some l, some p => if l.1 ≤ p.1 then (l.1, some l.2) else (p.1, some p.2)

/-- Write bytes one by one, as the plates of a bulk instruction go out through N1 (R222). -/
def State.engWriteEach (s : State) (t : TileId) (c : Bool) (a : Nat) (l : List Byte) : State :=
  (numbered a l).foldl (fun s b => s.engWrite t c b.1 [b.2]) s

/-- How far a VCVT has come: the source codes read, the destination lines and plate bytes written. -/
structure CvtPos where
  st : State
  codes : List Nat
  lines : Nat
  plates : Nat

/-- The tc, counted from the first Stylus slot of WR1, of the source line that completes the destination element before `e`: line i is
read in tc 2i (R82, R222). -/
def cvtReadAt (ws e : Nat) : Nat := 2 * ((e - 1) / perLine ws)

/-- The tc in which destination line j of n elements is written: a Stylus slot of WW, one line each, not before `w0` (R82, R222). -/
def cvtWriteAt (ws wd n w0 : Nat) : Nat → Nat
  | 0 => max w0 (cvtReadAt ws (min n (perLine wd)) + 1)
  | j + 1 => max (cvtReadAt ws (min n ((j + 2) * perLine wd)) + 1) (cvtWriteAt ws wd n w0 j + 2)

/-- The tc in which the plate byte of group g is written: the first after its group is complete, not before `w1` (R222). -/
def cvtPlateAt (ws n w1 g : Nat) : Nat := max w1 (cvtReadAt ws (min n (32 * (g + 1))) + 1)

/-- Write the destination lines and plates whose tc is before `tc`; `phase` says whether the instruction started in a slot of its own
(0) or in the tc before one (1). -/
def CvtPos.upTo (p : CvtPos) (t : TileId) (o : EngOp) (f : VcvtF) (splates : List Nat) (phase tc : Nat) : CvtPos :=
  let a := cvtAddr f o
  let ws := (elemOf f.sfmt.toNat).width
  let wd := (elemOf f.dfmt.toNat).width
  let r := convertArray (cvtArgs f o) p.codes splates
  let out := packLines wd r.1
  let ls := (List.range (a.dst.2 / 128)).filter fun j =>
    decide (p.lines ≤ j) && decide (cvtWriteAt ws wd a.n (9 - 2 * phase) j < tc)
  let gs := (List.range a.dplate.2).filter fun g => decide (p.plates ≤ g) && decide (cvtPlateAt ws a.n (8 - phase) g < tc)
  let s := ls.foldl (fun s j => s.engWrite t o.ctx (a.dst.1 + 128 * j) (sliceBytes out (128 * j) 128)) p.st
  let s := gs.foldl (fun s g => s.engWriteEach t o.ctx (a.dplate.1 + g) [BitVec.ofNat 8 (r.2.1.getD g 0)]) s
  { p with st := s, lines := p.lines + ls.length, plates := p.plates + gs.length }

/-- VCVT (R222): source lines are read in order, destination lines and plates written as they are complete, so that a destination over
its source changes what later lines hold; an uncorrectable word stops it after the lines and plates that come wholly before. The plates
of the source are read at the start, and on which side of a slot the start falls is free (assumption 12). -/
def State.vcvtEffect (s : State) (t : TileId) (o : EngOp) (f : VcvtF) : EngOut :=
  let a := cvtAddr f o
  if a.n = 0 then .done s
  else
    let x := s.tile t
    let ws := (elemOf f.sfmt.toNat).width
    let wd := (elemOf f.dfmt.toNat).width
    let phase := Config.freeValue s.free % 2
    let splates := (x.gather o.ctx [a.splate]).map BitVec.toNat
    let good := x.cvtGood o.ctx a ws
    let n := if good.2.isNone then a.n else good.1
    let s := s.tookFree.gatherCe t o.ctx [a.src, a.splate]
    let step (p : CvtPos) (i : Nat × Span) : CvtPos :=
      let p := p.upTo t o f splates phase (2 * i.1)
      let bytes := (p.st.tile t).gather o.ctx [i.2]
      let m := min (perLine ws) (a.n - i.1 * perLine ws)
      { p with codes := p.codes ++ (List.range m).map fun k => elemAt ws true bytes k }
    let lines := (numbered 0 (spanLines a.src)).take (ceilDiv n (perLine ws))
    let p := lines.foldl step { st := s, codes := [], lines := 0, plates := 0 }
    let r := convertArray (cvtArgs f o) p.codes splates
    match good.2 with
    | none => .done (p.upTo t o f splates phase (4 * a.n + 16 * 128)).st r.2.2
    | some w =>
      let done := min p.codes.length n
      let out := (packLines wd r.1).take (done / perLine wd * 128)
      let s := p.st.engWrite t o.ctx (a.dst.1 + 128 * p.lines) (out.drop (128 * p.lines))
      let s := if a.dplate.2 = 0 then s
               else s.engWriteEach t o.ctx (a.dplate.1 + p.plates)
                 (((r.2.1.take (done / 32)).drop p.plates).map (BitVec.ofNat 8))
      { st := s, flags := 0, ue := some w }

/-! ### VSPLIT32 (R144, R223) -/

/-- Exact difference of two finite values. -/
def numSub (x y : Num) : Num :=
  match x, y with
  | .fin s1 m1 e1, .fin s2 m2 e2 => let r := sumExact 0 s1 m1 e1 (!s2) m2 e2; .fin r.1 r.2.1 r.2.2
  | _, _ => .fin false 0 0

/-- A bfloat16 piece; a zero piece is +0. -/
def bfPiece (dir : Nat) (x : Num) : Nat :=
  match x with
  | .fin s m e => let c := (fmtBf16.round dir s m e).1; if c % 2 ^ 15 = 0 then 0 else c
  | _ => 0

/-- The three pieces of a binary32 code, and NV for a signalling NaN (R144, R223). -/
def split32 (code : Nat) : List Nat × Nat :=
  match fmtB32.decode code with
  | .fin s m e =>
    let x := Num.fin s m e
    let p1 := bfPiece 2 x
    let r1 := numSub x (fmtBf16.decode p1)
    let p2 := bfPiece 0 r1
    let p3 := bfPiece 0 (numSub r1 (fmtBf16.decode p2))
    ([p1, p2, p3], 0)
  | x => let r := fmtBf16.convert (.dir 0) false x; ([r.1, 0, 0], r.2)

/-- Bytes that VSPLIT32 writes for each piece array: address and pieces. -/
def splitDst (o : EngOp) (n j : Nat) : Span := (alignTo 128 (o.arg 1) + j * alignTo 128 (o.arg 2), lineBytes 16 n)

/-- VSPLIT32. -/
def State.vsplitEffect (s : State) (t : TileId) (o : EngOp) (p3 : Bool) : EngOut :=
  let n := bits (o.arg 3) 0 32
  if n = 0 then .done s
  else
    let src : Span := (alignTo 128 (o.arg 0), lineBytes 32 n)
    let x := s.tile t
    let bytes := x.gather o.ctx [src]
    let rs := (List.range n).map fun i => split32 (elemAt 32 true bytes i)
    let bad := (numbered 0 (spanLines src)).findSome? fun l =>
      (x.badWord (x.phys o.ctx l.2.1) 128).map fun b => (l.1 * 32, b)
    let keep : Nat := match bad with
      | some b => b.1 / 64 * 128
      | none => lineBytes 16 n
    let s := s.gatherCe t o.ctx [src]
    let s := s.each (List.range (if p3 then 3 else 2)) fun s j =>
      s.engWrite t o.ctx (splitDst o n j).1 ((packLines 16 (rs.map fun r => r.1.getD j 0)).take keep)
    match bad with
    | some b => { st := s, flags := 0, ue := some b.2 }
    | none => .done s (orFlags (rs.map fun r => (0, r.2)))

/-! ### VSLICE64 (R147, R224) -/

/-- The least integer σ with |x| < 2^σ for every value, 0 where all are zero, −32,768 where one is not finite. -/
def sliceScale (l : List Num) : Int :=
  if l.any Num.special then -32768
  else match topExp l with
    | some e => e + 1
    | none => 0

/-- The slices of one scaled element, the first first (R147). -/
def slices : Nat → Nat → Num → List Int
  | 0, _, _ => []
  | n + 1, i, r =>
    match r with
    | .fin s m e =>
      let k := roundAt 0 s m (e + (7 * i - 1 : Nat)) 0
      let a : Int := if s then -(k.1 : Int) else k.1
      a :: slices n (i + 1) (numSub r (.fin s k.1 (1 - (7 * i : Nat))))
    | _ => 0 :: slices n (i + 1) r

/-- VSLICE64's shape: rows, columns and the address of element (r, c). -/
def sliceShape (o : EngOp) : Nat × Nat := (bits (o.arg 3) 0 16, bits (o.arg 3) 16 16)
def sliceElem (o : EngOp) (r c : Nat) : Nat :=
  let p := bits (o.arg 3) 32 21
  alignTo 8 (o.arg 0 + r * (if p = 0 then 8 * (sliceShape o).2 else p) + 8 * c)

def sliceCount (sc : BitVec 2) : Nat := 6 + sc.toNat

/-- The source, row by row. -/
def sliceSpans (o : EngOp) : List Span :=
  (List.range (sliceShape o).1).flatMap fun r => (List.range (sliceShape o).2).map fun c => (sliceElem o r c, 8)

/-- Slice array j, counted from 0. -/
def sliceDst (o : EngOp) (j : Nat) : Span :=
  (alignTo 128 (o.arg 1) + j * alignTo 128 (o.arg 2), lineBytes 8 ((sliceShape o).1 * (sliceShape o).2))

/-- VSLICE64. An uncorrectable word stops it after what comes wholly before: with a scale per row, the lines and scales of the rows
before the word's; with a scale per column, which needs every row, nothing (R100). -/
def State.vsliceEffect (s : State) (t : TileId) (o : EngOp) (sc : BitVec 2) (axis : Bool) : EngOut :=
  let R := (sliceShape o).1
  let C := (sliceShape o).2
  if R = 0 ∨ C = 0 then .done s
  else
    let x := s.tile t
    let spans := sliceSpans o
    let bad := (numbered 0 spans).findSome? fun e => (x.badWord (x.phys o.ctx e.2.1) 8).map fun w => (e.1, w)
    let bytes := x.gather o.ctx spans
    let s := s.gatherCe t o.ctx spans
    let el (r c : Nat) : Num := fmtB64.decode (fieldAt bytes (8 * (r * C + c)) 8)
    let line (k : Nat) : List Num :=
      if axis then (List.range R).map fun r => el r k else (List.range C).map fun c => el k c
    let n := if axis then C else R
    let scales := (List.range n).map fun k => sliceScale (line k)
    let one (k : Nat) (x : Num) : List Int :=
      let sg := scales.getD k 0
      if sg = -32768 then List.replicate (sliceCount sc) 0 else slices (sliceCount sc) 1 (x.scale (-sg))
    let all := (List.range n).flatMap fun k => (line k).map (one k)
    let rows := match bad with
      | some b => if axis then 0 else b.1 / C
      | none => n
    let kept := if bad.isSome then rows * C / 128 * 128 else lineBytes 8 (R * C)
    let s := s.each (List.range (sliceCount sc)) fun s j =>
      s.engWrite t o.ctx (sliceDst o j).1
        ((padTo (lineBytes 8 (R * C)) (all.map fun a => BitVec.ofInt 8 (a.getD j 0))).take kept)
    let s := s.engWrite t o.ctx (alignTo 2 (o.arg 4)) ((scales.take rows).flatMap fun g => leBytes 2 (BitVec.ofInt 16 g).toNat)
    match bad with
    | some b => { st := s, flags := 0, ue := some b.2 }
    | none => .done s

/-! ### VSAMPLE (R164, R165, R225) -/

/-- A candidate: index, score and key. -/
abbrev Cand := Nat × Num × Nat

/-- Candidates in order of falling score, lower indices first at equal scores: how many stand before one. -/
def rankOf (l : List Cand) (a : Cand) : Nat :=
  (l.filter fun b => numLt a.2.1 b.2.1 || (!numLt b.2.1 a.2.1 && decide (b.1 < a.1))).length

/-- The winner: the largest key, the lowest index among equal keys. -/
def winner : List Cand → Option Cand
  | [] => none
  | a :: r => match winner r with
    | none => some a
    | some b => if numLt (fmtB32.decode a.2.2) (fmtB32.decode b.2.2) then some b else some a

/-- The 8-byte result and the flags of a row of scores. -/
def sample (f : VsampleF) (o : EngOp) (scores : List Nat) : List Byte × Nat :=
  let z (c : Nat) : Num := fmtB32.decode c
  let key (i c : Nat) : Nat :=
    if f.greedy then c
    else (fmtB32.fma 0 (z (bits (o.arg 2) 0 32)) (z c)
      (z (gumbel (drawU24 o.key (o.regs.getD 3 0) (o.regs.getD 4 0 + BitVec.ofNat 64 i))))).1
  let cs : List Cand := (numbered 0 scores).map fun p => (p.1, z p.2, key p.1 p.2)
  let ok := cs.filter fun a => !(z a.2.2).isNan
  let kept := if f.k = 0 then ok else ok.filter fun a => decide (rankOf ok a < f.k.toNat)
  let r := match winner kept with
    | some a => (a.1, a.2.2)
    | none => (0xFFFFFFFF, 0x7FC00000)
  (leBytes 4 r.1 ++ leBytes 4 r.2, if ok.length = cs.length then 0 else fNV)

def sampleCount (o : EngOp) : Nat := min 1048576 (bits (o.arg 1) 0 21)

/-- VSAMPLE. -/
def State.vsampleEffect (s : State) (t : TileId) (o : EngOp) (f : VsampleF) : EngOut :=
  let n := sampleCount o
  s.engRead t o.ctx [(alignTo 4 (o.arg 0), 4 * n)] fun s bytes =>
    let r := sample f o ((List.range n).map fun i => fieldAt bytes (4 * i) 4)
    .done (s.engWrite t o.ctx (alignTo 8 (o.arg 5)) r.1) r.2

/-! ### Issue -/

def execVld (t : TileId) (w : WaitSig) (f : VldF) (s : State) : Res := s.issueEng t 2 (.vld t w f) [f.ra, f.rb]
def execVst (t : TileId) (w : WaitSig) (vs ra : RegNo) (crm : Bool) (cr : BitVec 4) (s : State) : Res :=
  s.issueEng t 2 (.vst t w vs ra crm cr) [ra]
def execVldl (t : TileId) (w : WaitSig) (v ra : RegNo) (lane : BitVec 5) (crm : Bool) (cr : BitVec 4) (s : State) : Res :=
  s.issueEng t 2 (.vldl t w v ra lane crm cr) [ra]
def execVstl (t : TileId) (w : WaitSig) (v ra : RegNo) (lane : BitVec 5) (crm : Bool) (cr : BitVec 4) (s : State) : Res :=
  s.issueEng t 2 (.vstl t w v ra lane crm cr) [ra]
def execVstg (t : TileId) (w : WaitSig) (vd line : RegNo) (s : State) : Res :=
  s.issueEng t 2 (.vstg t w vd line) []
def execVcvt (t : TileId) (w : WaitSig) (f : VcvtF) (s : State) : Res :=
  s.issueEng t 2 (.vcvt t w f) [f.rs, f.rd, f.rn, f.rp, f.rt, f.re]
def execVsplit32 (t : TileId) (w : WaitSig) (rs rd rq rn : RegNo) (p3 : Bool) (s : State) : Res :=
  s.issueEng t 2 (.vsplit32 t w rs rd rq rn p3) [rs, rd, rq, rn]
def execVslice64 (t : TileId) (w : WaitSig) (rs rd rq rsh rsc : RegNo) (sc : BitVec 2) (axis : Bool) (s : State) : Res :=
  s.issueEng t 2 (.vslice64 t w rs rd rq rsh rsc sc axis) [rs, rd, rq, rsh, rsc]
def execVsample (t : TileId) (w : WaitSig) (f : VsampleF) (s : State) : Res :=
  s.issueEng t 2 (.vsample t w f) [f.rz, f.rn, f.rb, f.rt, f.re, f.rr]

end Sys2Proof.Machine
end

