-- ==== Sys2Proof/Machine/Xlat.lean ====
section
/-! DEFINITION. Virtual memory (R326–R331): table entries, the walk, the translation caches of a region, and their
invalidation. -/

namespace Sys2Proof.Machine

/-- What a translation gives: a page and its permissions; a fault with its cause, level and index; or a walk read that waits for its
stack (R390). -/
inductive XlatRes where
  | page (p : XlatPage) (r w : Bool)
  | fault (cause level index : Nat)
  | wait
deriving DecidableEq, Repr

/-- Causes of T_XLAT_FAULT_INFO. -/
def xNoncanon := 1
def xNoroot := 2
def xNotvalid := 3
def xPerm := 4
def xBadpte := 5

/-- The lowest VA bit that a level indexes, which is the page-size exponent of its leaves (R326). -/
def levelShift (l : Nat) : Nat := match l with
  | 0 => 16
  | 1 => 21
  | 2 => 30
  | 3 => 39
  | _ => 48

/-- The index of an address at a level (R326). -/
def levelIndex (l va : Nat) : Nat := bits va (levelShift l) (if l = 0 then 5 else 9)

/-- The VA bits 56:16 that an entry of a level covers, the bits below its index zero. -/
def levelPrefix (l va : Nat) : Nat := bits va (levelShift l) (57 - levelShift l) * 2 ^ (levelShift l - 16)

def pteLeaf (e : Word) : Bool := e.getLsbD 1
def pteGlobal (e : Word) : Bool := e.getLsbD 5

/-- The page that a leaf entry of a level gives. -/
def leafPage (l va : Nat) (e : Word) (via : List XlatEntry) : XlatRes :=
  let size := 2 ^ levelShift l
  .page { va := va / size * size, size := size, pa := bits e.toNat 8 48 * 256, via := via } (e.getLsbD 2) (e.getLsbD 3)

/-- A valid entry breaks a rule of R327. -/
def State.badPte (s : State) (l : Nat) (e : Word) : Bool :=
  decide (bits e.toNat 56 8 ≠ 0) || decide (bits e.toNat 6 2 ≠ 0) || e.getLsbD 4 ||
  (if pteLeaf e then decide (l > 2) || decide (bits e.toNat 8 (levelShift l - 8) ≠ 0)
   else
    let next := bits e.toNat 8 33 * 256
    let size := if l = 1 then 256 else 4096
    decide (l = 0) || pteGlobal e || e.getLsbD 3 || e.getLsbD 2 || decide (bits e.toNat 41 15 ≠ 0) ||
      decide (next % size ≠ 0) || !s.inPackage next size)

/-- Keep an entry in the caches of a region; a full cache drops its oldest (R330). -/
def State.cacheAdd (s : State) (g : Nat) (asid : BitVec 12) (l va : Nat) (e : Word) : State :=
  s.modRegion g fun r =>
    let leaf := pteLeaf e
    let same := r.xlatCache.filter fun x => pteLeaf x.2.2.2 = leaf
    let cap := if leaf then 4096 else 512
    let keep := if same.length < cap then r.xlatCache else eraseFirst (fun x => pteLeaf x.2.2.2 = leaf) r.xlatCache
    { r with xlatCache := keep ++ [(asid, l, levelPrefix l va, e)] }

/-- A cached entry of a level that serves an address: a leaf or a non-leaf entry (R330). -/
def Region.cached (r : Region) (asid : BitVec 12) (l va : Nat) (leaf : Bool) : Option XlatEntry :=
  r.xlatCache.find? fun x =>
    decide (x.2.1 = l) && decide (x.2.2.1 = levelPrefix l va) && decide (pteLeaf x.2.2.2 = leaf) &&
      (decide (x.1 = asid) || pteGlobal x.2.2.2)

/-- One walk read of 8 bytes: the state, and the entry, none where the granule is poisoned (R329, R345). -/
def State.walkRead (s : State) (a : Nat) : State × Option Word :=
  let r := s.granReadAt (a / 64) 3
  (r.1, if r.2.2 then none else some (BitVec.ofNat 64 (fieldAt r.2.1 (a % 64) 8)))

/-- The readiness of the stack that holds an address. -/
def State.readyAt (s : State) (a : Nat) : StackReady := s.stackReady (s.place (a / 64 * 64)).stack

/-- The walk of one level from the table at `tab`, and on down, by the entries so far (R326, R327, R329). -/
def State.walkTable (s : State) (g : Nat) (asid : BitVec 12) (va : Nat) : Nat → Nat → List XlatEntry → State × XlatRes
  | l, tab, via =>
    let i := levelIndex l va
    let a := tab + 8 * i
    match s.readyAt a with
    | .waking => (s.switchOn (hbmDomain (s.place (a / 64 * 64)).stack), .wait)
    | .refused => (s, .fault xBadpte l i)
    | .ready =>
      match s.walkRead a with
      | (s, none) => (s, .fault xBadpte l i)
      | (s, some e) =>
        if ¬ e.getLsbD 0 then (s, .fault xNotvalid l i)
        else if s.badPte l e then (s, .fault xBadpte l i)
        else
          let s := s.cacheAdd g asid l va e
          let via := via ++ [(asid, l, levelPrefix l va, e)]
          if pteLeaf e then (s, leafPage l va e via)
          else match l with
            | 0 => (s, .fault xBadpte 0 i)
            | l + 1 => State.walkTable s g asid va l (bits e.toNat 8 33 * 256) via
termination_by structural l => l

/-- The root table's address and EN (R328). -/
def Region.root (r : Region) : Nat := bits r.xlatRootHi.toNat 0 9 * 2 ^ 32 + bits r.xlatRootLo.toNat 15 17 * 2 ^ 15
def Region.rootEn (r : Region) : Bool := r.xlatRootLo.getLsbD 0

/-- The fault of a root entry; INDEX has nine bits, so it holds the id modulo 512. -/
def norootFault (asid : BitVec 12) : XlatRes := .fault xNoroot 15 (asid.toNat % 512)

/-- The walk from the root table (R328). -/
def State.walkRoot (s : State) (g : Nat) (asid : BitVec 12) (va : Nat) : State × XlatRes :=
  let r := s.region g
  let a := r.root + 8 * asid.toNat
  if ¬ r.rootEn ∨ ¬ s.inPackage a 8 then (s, norootFault asid)
  else match s.readyAt a with
    | .waking => (s.switchOn (hbmDomain (s.place (a / 64 * 64)).stack), .wait)
    | .refused => (s, norootFault asid)
    | .ready =>
      match s.walkRead a with
      | (s, none) => (s, .fault xBadpte 15 (asid.toNat % 512))
      | (s, some e) =>
        let tab := bits e.toNat 12 29 * 4096
        if ¬ e.getLsbD 0 ∨ bits e.toNat 1 11 ≠ 0 ∨ bits e.toNat 41 23 ≠ 0 ∨ ¬ s.inPackage tab 4096 then (s, norootFault asid)
        else s.walkTable g asid va 4 tab []

/-- A translation in a region: a leaf hit, a walk from the deepest cached entry, or a walk from the root (R326–R330). -/
def State.lookup (s : State) (g : Nat) (asid : BitVec 12) (va : Nat) : State × XlatRes :=
  let r := s.region g
  if va ≥ 2 ^ 57 then (s, .fault xNoncanon 15 0)
  else if ¬ r.rootEn then (s, norootFault asid)
  else match [0, 1, 2].findSome? fun l => (r.cached asid l va true).map fun e => (l, e) with
    | some (l, e) => (s, leafPage l va e.2.2.2 [e])
    | none =>
      match [1, 2, 3, 4].findSome? fun l => (r.cached asid l va false).map fun e => (l, e) with
      | some (l, e) => s.walkTable g asid va (l - 1) (bits e.2.2.2.toNat 8 33 * 256) [e]
      | none => s.walkRoot g asid va

/-- A translation with an intent: PERM where the leaf does not permit it (R329). -/
def State.translate (s : State) (g : Nat) (asid : BitVec 12) (va : Nat) (write : Bool) : State × XlatRes :=
  match s.lookup g asid va with
  | (s, .page p r w) =>
    if (if write then w else r) then (s, .page p r w)
    else
      let l := if p.size = 2 ^ 16 then 0 else if p.size = 2 ^ 21 then 1 else 2
      (s, .fault xPerm l (levelIndex l va))
  | x => x

/-! ### Invalidation (R331) -/

/-- The entries that a mode leaves. -/
def xlatKeep (mode : Nat) (asid : BitVec 12) (va : Nat) (x : BitVec 12 × Nat × Nat × Word) : Bool :=
  let g := pteGlobal x.2.2.2
  match mode with
  | 0 => false
  | 1 => !(decide (x.1 = asid) && !g)
  | 2 => !((decide (x.1 = asid) || g) && decide (x.2.2.1 = levelPrefix x.2.1 va))
  | _ => !g

/-- An operation when entries are invalidated: no page that they translated serves it any more, and its requests that they translated
are those that DONE waits for. -/
def StreamOp.invalidated (o : StreamOp) (gone : XlatEntry → Bool) : StreamOp :=
  { o with pages := o.pages.filter fun p => !p.via.any gone
           ready := o.ready.map fun p => { p with stale := p.stale || p.via.any gone }
           batches := o.batches.map fun b => { b with stale := b.stale || b.via.any gone } }

/-- Start an invalidation in a region: no later translation uses an invalidated entry, and DONE falls until the requests
that such entries translated have been performed. -/
def State.invalidate (s : State) (g mode : Nat) (asid : BitVec 12) (va : Nat) : State :=
  let s := s.modRegion g fun r =>
    { r with xlatCache := r.xlatCache.filter (xlatKeep mode asid va), invDone := false,
             invMode := BitVec.ofNat 2 mode, invAsid := asid }
  let gone (e : XlatEntry) : Bool := !xlatKeep mode asid va e
  let upd (y : Ctx) : Ctx := { y with stream := y.stream.map fun o => o.invalidated gone }
  s.each ((s.tiles.map fun p => p.1).filter fun t => decide (t / 256 = g)) fun s t =>
    s.modTile (BitVec.ofNat 12 t) fun x => { x with c0 := upd x.c0, c1 := upd x.c1 }

/-- A write of REGION_XLAT_INV_CTL (R331). -/
def execXlatInvalidate (region : Nat) (v : Word32) (s : State) : Res :=
  let r := s.region region
  let s := s.modRegion region fun r => { r with invMode := v.extractLsb' 26 2, invAsid := v.extractLsb' 12 12 }
  let va := bits r.invVaHi.toNat 0 25 * 2 ^ 32 + bits r.invVaLo.toNat 16 16 * 2 ^ 16
  .next (if v.getLsbD 0 && r.invDone then s.invalidate region (bits v.toNat 26 2) (v.extractLsb' 12 12) va else s)

/-- An operation has a request that an invalidated entry translated and that has not reached its completion point. -/
def StreamOp.stale (o : StreamOp) : Bool := o.ready.any (fun p => p.stale) || o.batches.any (fun b => b.stale)

/-- Every stream request of the region that was translated with an invalidated entry has reached its completion point (R331). -/
def State.invQuiet (s : State) (g : Nat) : Bool :=
  s.tiles.all fun p => p.1 / 256 ≠ g || !(p.2.c0.stream.any StreamOp.stale || p.2.c1.stream.any StreamOp.stale)

/-- An UNMAP waits until every region reads DONE; it replies with the number of pages that it removed (R331, R424). -/
def State.pumpUnmaps (s : State) : State :=
  if (List.range 16).all fun g => (s.region g).invDone then
    s.each s.host.waits fun s w =>
      match w.kind with
      | .unmap n => (s.unwait w).ok w.hdr w.opcode n
      | _ => s
  else s

/-- XLAT_INVALIDATE_DONE (R331). -/
def execXlatInvalidateDone (region : Nat) (s : State) : Res :=
  .next (if s.invQuiet region then (s.modRegion region fun r => { r with invDone := true }).pumpUnmaps else s)

end Sys2Proof.Machine
end

