-- ==== Sys2Proof/Machine/Stream.lean ====
section
/-! DEFINITION. The stream engine (R235–R237, R317–R341, R345): issue and acceptance, descriptors and their elements, translation and
access, ordering, faults, fences and completion. -/

namespace Sys2Proof.Machine

/-! ### Issue (R54, R194, R236) -/

/-- A stream instruction or FENCE enters its context's queue of 32 (R53, R237). -/
def State.issueStream (s : State) (t : TileId) (ins : Instr) (regs : List RegNo) : Res :=
  s.issueUnless t (fun c => instrOk ins && decide ((s.ctx t c).stream.length ≥ 32)) fun c s =>
    if instrOk ins then
      let o (y : Ctx) : StreamOp :=
        { op := y.capture c ins regs, phase := .queued, slot := 0, desc := 0, param := 0, next := 0, trans := 0,
          pages := [], ready := [], held := [], part := 0, batches := [], flags := 0, failCode := 0, failElem := none,
          failGrans := [], partmap := 0, devs := [] }
      (s.modCtx t c fun y => { y with stream := y.stream ++ [o y] }).advance t c
    else s.illegalHere t c

def execSdesc (t : TileId) (w : WaitSig) (ra : RegNo) (s : State) : Res := s.issueStream t (.sdesc t w ra) [ra]
def execSget (t : TileId) (w : WaitSig) (f : ScopyF) (s : State) : Res :=
  s.issueStream t (.sget t w f) [f.rl, f.rv, f.rn, f.rst]
def execSput (t : TileId) (w : WaitSig) (f : ScopyF) (s : State) : Res :=
  s.issueStream t (.sput t w f) [f.rl, f.rv, f.rn, f.rst]
def execSamo (t : TileId) (w : WaitSig) (f : SamoF) (s : State) : Res :=
  s.issueStream t (.samo t w f) [f.rv, f.rx, f.rc, f.rr]
def execSflag (t : TileId) (w : WaitSig) (rv rx : RegNo) (acq rel : Bool) (s : State) : Res :=
  s.issueStream t (.sflag t w rv rx acq rel) [rv, rx]
def execFence (t : TileId) (w : WaitSig) (scope : BitVec 2) (s : State) : Res := s.issueStream t (.fence t w scope) []

/-- Opcode of a stream instruction (R194, R235). -/
def streamOpcode : Instr → Nat
  | .sdesc .. => 0x300
  | .sget .. => 0x301
  | .sput .. => 0x302
  | .samo .. => 0x303
  | .sflag .. => 0x304
  | _ => 0x007

/-! ### What an instruction moves (R236, R317–R319) -/

/-- A copy's parameters, whether they come from a descriptor or from SGET or SPUT. -/
structure Copy where
  get : Bool
  crm : Bool
  cr : Nat
  sfmt : Nat
  dfmt : Nat
  conv : Bool
  mode : Nat
  sat : Bool
  record : Option Nat
  mbase : Nat
  sbase : Nat
  gather : Bool
  counts : Nat × Nat × Nat × Nat
  ms : Int × Int × Int
  ss : Int × Int × Int
  param : Bool
  pbase : Nat
  key : BitVec 128
  stream : Word
  e0 : Word
  mplate : Nat
  splate : Nat
  supply : Option Nat
  glist : Nat

/-- The fields of a descriptor and its parameter block (R317, R318). -/
def descCopy (d p : Nat) : Copy :=
  let f (byte lo n : Nat) : Nat := bits d (8 * byte + lo) n
  let q (byte lo n : Nat) : Nat := bits p (8 * byte + lo) n
  let ndim := f 0 4 2
  let gather := f 0 6 1 = 1
  let sp := q 40 0 32
  { get := decide (f 0 0 4 = 0), crm := f 0 7 1 = 1, cr := f 0 8 4, sfmt := f 0 12 4, dfmt := f 0 16 4, conv := f 0 20 1 = 1,
    mode := f 0 21 2, sat := f 0 23 1 = 1, record := if f 0 53 1 = 1 then some (f 0 32 21 / 16 * 16) else none,
    mbase := f 8 0 64, sbase := f 16 0 21, gather := gather,
    counts := (f 24 0 24, if gather then q 48 0 32 else if ndim ≥ 1 then f 28 0 16 else 1,
               if ndim ≥ 2 then f 30 0 16 else 1, if ndim ≥ 3 then f 32 0 16 else 1),
    ms := (sintOf 48 (f 34 0 48), sintOf 48 (f 40 0 48), sintOf 48 (f 46 0 48)),
    ss := (sintOf 24 (f 52 0 24), sintOf 24 (f 55 0 24), sintOf 24 (f 58 0 24)), param := f 0 26 1 = 1,
    pbase := f 20 6 15 * 64, key := BitVec.ofNat 128 p, stream := BitVec.ofNat 64 (q 16 0 64),
    e0 := BitVec.ofNat 64 (q 24 0 64), mplate := q 32 0 64, splate := bits sp 0 21,
    supply := if sp.testBit 31 then some (bits sp 23 8) else none, glist := q 44 3 18 * 8 }

/-- SGET and SPUT as one-dimensional copies of bytes (R236, R321). -/
def plainCopy (get : Bool) (f : ScopyF) (o : EngOp) : Copy :=
  { get := get, crm := f.crm, cr := f.cr.toNat, sfmt := 0, dfmt := 0, conv := false, mode := 0, sat := false,
    record := if f.rst = 0 then none else some (bits (o.arg 3) 0 64 / 16 * 16), mbase := o.arg 1 / 64 * 64,
    sbase := o.arg 0 / 64 * 64, gather := false, counts := (bits (o.arg 2) 6 26 * 64, 1, 1, 1), ms := (0, 0, 0),
    ss := (0, 0, 0), param := false, pbase := 0, key := 0, stream := 0, e0 := 0, mplate := 0, splate := 0,
    supply := none, glist := 0 }

/-- The copy that an accepted instruction runs, if it is a copy. -/
def StreamOp.copy (o : StreamOp) : Option Copy :=
  match o.op.ins with
  | .sdesc _ _ _ => some (descCopy o.desc.toNat o.param.toNat)
  | .sget _ _ f => some (plainCopy true f o.op)
  | .sput _ _ f => some (plainCopy false f o.op)
  | _ => none

def Copy.total (d : Copy) : Nat := d.counts.1 * d.counts.2.1 * d.counts.2.2.1 * d.counts.2.2.2

/-- The number of elements: one for SAMO and SFLAG, none for a FENCE. -/
def StreamOp.total (o : StreamOp) : Nat :=
  match o.op.ins, o.copy with
  | .samo _ _ _, _ | .sflag _ _ _ _ _ _, _ => 1
  | _, some d => d.total
  | _, none => 0

def StreamOp.isFence (o : StreamOp) : Bool := match o.op.ins with
  | .fence _ _ _ => true
  | _ => false

def StreamOp.acq (o : StreamOp) : Bool := match o.op.ins with
  | .sdesc _ _ _ => o.desc.getLsbD 24
  | .sget _ _ f | .sput _ _ f => f.acq
  | .samo _ _ f => f.acq
  | .sflag _ _ _ _ a _ => a
  | _ => false

def StreamOp.rel (o : StreamOp) : Bool := match o.op.ins with
  | .sdesc _ _ _ => o.desc.getLsbD 25
  | .sget _ _ f | .sput _ _ f => f.rel
  | .samo _ _ f => f.rel
  | .sflag _ _ _ _ _ r => r
  | _ => false

/-- The operation writes memory: its translation intent (R329). -/
def StreamOp.writes (o : StreamOp) : Bool := match o.copy with
  | some d => !d.get
  | none => true

/-! ### Layouts of a row (R107, R108, R319) -/

def fmtWidth (d : Copy) (f : Nat) : Nat := if d.conv then (elemOf f).width else 8
/-- Element widths of the memory side and of the scratchpad side. -/
def Copy.mw (d : Copy) : Nat := fmtWidth d (if d.get then d.sfmt else d.dfmt)
def Copy.sw (d : Copy) : Nat := fmtWidth d (if d.get then d.dfmt else d.sfmt)
def Copy.mGroup (d : Copy) : Bool := d.conv && isGroup (if d.get then d.sfmt else d.dfmt)
def Copy.sGroup (d : Copy) : Bool := d.conv && isGroup (if d.get then d.dfmt else d.sfmt)

/-- The elements moved together: a group of a group-scaled format, one otherwise (R332). -/
def Copy.unitLen (d : Copy) : Nat := if d.mGroup || d.sGroup then 32 else 1

/-- The codes of a piece on each side: a last partial group is written whole, with +0 codes for its missing elements (R109). -/
def Copy.mCount (d : Copy) (cnt : Nat) : Nat := if d.mGroup && !d.get then 32 else cnt
def Copy.sCount (d : Copy) (cnt : Nat) : Nat := if d.sGroup && d.get && !d.crm then 32 else cnt

/-- Where element i of a scratchpad row starts, in bits: H6 has the line layout (R107, R108). -/
def Copy.sBit (d : Copy) (i : Nat) : Nat := if d.sw = 6 then i / 128 * 1024 + i % 128 * 6 else i * d.sw

/-- Elements moved together: the first element, how many; on each side the address of the first byte, the bit of it at which they
start, the bytes they lie in, and the plate's address; whether they end their row; and whether an H6 scratchpad row does not start on
a line (U3). -/
structure Piece where
  n : Nat
  cnt : Nat
  mem : Nat
  mbit : Nat
  mlen : Nat
  mplate : Option Nat
  sp : Nat
  sbit : Nat
  slen : Nat
  splate : Option Nat
  rowEnd : Bool
  odd : Bool

/-- The row index i1 of element n, which the gather list serves. -/
def Copy.rowOf (d : Copy) (n : Nat) : Nat := n / max 1 d.counts.1 % max 1 d.counts.2.1

/-- The piece that starts at element n, the memory-side offset of its row in dimension 1 given (R319). -/
def Copy.piece (d : Copy) (n : Nat) (m1 : Int) : Piece :=
  let c0 := max 1 d.counts.1
  let c1 := max 1 d.counts.2.1
  let c2 := max 1 d.counts.2.2.1
  let i0 := n % c0
  let r := n / c0
  let i1 : Int := (r % c1 : Nat)
  let i2 : Int := (r / c1 % c2 : Nat)
  let i3 : Int := (r / (c1 * c2) : Nat)
  let cnt := min d.unitLen (c0 - i0)
  let mrow := ((d.mbase : Int) + i3 * d.ms.2.2 + i2 * d.ms.2.1 + m1) % (2 ^ 64 : Nat)
  let srow := ((d.sbase : Int) + i3 * d.ss.2.2 + i2 * d.ss.2.1 + i1 * d.ss.1) % (2 ^ 21 : Nat)
  let plate := r * ceilDiv c0 32 + i0 / 32
  let mbit := i0 * d.mw % 8
  let sbit := d.sBit i0 % 8
  { n := n, cnt := cnt, mem := (mrow.toNat + i0 * d.mw / 8) % 2 ^ 64, mbit := mbit
    mlen := ceilDiv (mbit + d.mCount cnt * d.mw) 8
    mplate := if d.mGroup then some ((d.mplate + plate) % 2 ^ 64) else none,
    sp := srow.toNat + d.sBit i0 / 8, sbit := sbit, slen := ceilDiv (sbit + d.sCount cnt * d.sw) 8,
    splate := if d.sGroup then some (d.splate + plate) else none
    rowEnd := decide (i0 + cnt = c0), odd := decide (d.sw = 6) && !d.crm && decide (srow % 128 ≠ 0) }

/-- Virtual addresses of a piece's memory-side bytes, the plate's last. -/
def Piece.addrs (p : Piece) : List Nat := (List.range p.mlen).map (fun i => (p.mem + i) % 2 ^ 64) ++ p.mplate.toList

/-- Bytes between the first and past the last element of a scratchpad row, the last group of one that is written whole (R109). -/
def Copy.rowBytes (d : Copy) : Nat :=
  let c0 := if d.sGroup && d.get && !d.crm then ceilDiv d.counts.1 32 * 32 else d.counts.1
  if d.sw = 6 then (c0 / 128 * 128) + ceilDiv (c0 % 128 * 6) 8 else ceilDiv (c0 * d.sw) 8

/-- The scratchpad data footprint: the lowest byte and past the highest (R321). -/
def Copy.dataSpan (d : Copy) : Int × Int :=
  let lo (c : Nat) (st : Int) : Int := min 0 (((c : Int) - 1) * st)
  let hi (c : Nat) (st : Int) : Int := max 0 (((c : Int) - 1) * st)
  let b : Int := d.sbase
  let c := d.counts.2
  (b + lo c.1 d.ss.1 + lo c.2.1 d.ss.2.1 + lo c.2.2 d.ss.2.2,
   b + hi c.1 d.ss.1 + hi c.2.1 d.ss.2.1 + hi c.2.2 d.ss.2.2 + d.rowBytes)

/-! ### The checks of acceptance (R317, R318, R321) -/

/-- A reserved field, a reserved value or a broken must-be-zero rule of the descriptor (R317). -/
def descBad (d : Nat) : Bool :=
  let f (byte lo n : Nat) : Nat := bits d (8 * byte + lo) n
  let conv := f 0 20 1 = 1
  let crm := f 0 7 1 = 1
  let sfmt := f 0 12 4
  let dfmt := f 0 16 4
  let mode := f 0 21 2
  let sat := f 0 23 1 = 1
  let need := mode = 2 ∨ f 0 6 1 = 1 ∨ (conv ∧ (isGroup sfmt ∨ isGroup dfmt))
  decide (f 0 0 4 > 1) || (!crm && decide (f 0 8 4 ≠ 0)) ||
  (!conv && (decide (sfmt ≠ 0) || decide (dfmt ≠ 0) || decide (mode ≠ 0) || sat)) || decide (mode = 3) ||
  (sat && decide (dfmt ≠ 3)) || decide (f 0 27 5 ≠ 0) || decide (f 0 54 10 ≠ 0) || decide (f 16 21 11 ≠ 0) ||
  (crm && (decide (f 16 0 21 ≠ 0) || decide (f 52 0 72 ≠ 0))) ||
  decide (f 20 0 6 ≠ 0) || decide (f 20 21 11 ≠ 0) || decide (f 24 24 8 ≠ 0) || decide (f 61 0 24 ≠ 0) ||
  (decide (f 0 26 1 = 1) != decide need) || (decide (f 0 26 1 = 0) && decide (f 20 6 15 ≠ 0))

/-- A field of the parameter block that the descriptor does not use, or a reserved one, is not zero (R318). -/
def paramBad (c : Copy) (p : Nat) : Bool :=
  let q (byte lo n : Nat) : Nat := bits p (8 * byte + lo) n
  (decide (c.mode ≠ 2) && decide (q 0 0 256 ≠ 0)) || (!c.mGroup && decide (q 32 0 64 ≠ 0)) ||
  (!c.sGroup && decide (q 40 0 21 ≠ 0)) || decide (q 40 21 2 ≠ 0) ||
  (!(c.conv && isGroup c.dfmt) && (decide (q 40 31 1 ≠ 0) || decide (q 40 23 8 ≠ 0))) ||
  (decide (q 40 31 1 = 0) && decide (q 40 23 8 ≠ 0)) ||
  (!c.gather && (decide (q 44 0 32 ≠ 0) || decide (q 48 0 32 ≠ 0))) || decide (q 44 0 3 ≠ 0) || decide (q 44 21 11 ≠ 0) ||
  decide (q 52 0 96 ≠ 0)

/-- The first violating relative address of a span, none where it lies in the partition (R72). -/
def Tile.spanBad (x : Tile) (c : Bool) (lo hi : Int) : Option Nat :=
  if hi ≤ lo then none
  else if lo < 0 then some (lo % (2 ^ 32 : Nat)).toNat
  else if hi > x.partSize c then some (max lo.toNat (x.partSize c))
  else none

/-- The data footprint, where the scratchpad side is no circular region and there is work. -/
def Tile.dataBad (x : Tile) (c : Bool) (d : Copy) : Option Nat :=
  if d.crm ∨ d.total = 0 then none else x.spanBad c d.dataSpan.1 d.dataSpan.2

/-- The footprint checked at acceptance: data, record and parameter block (R321). -/
def Tile.copyBad (x : Tile) (c : Bool) (d : Copy) : Option Nat :=
  (if d.gather then none else x.dataBad c d) <|>
  (d.record.bind fun a => x.spanBad c a (a + 16)) <|>
  (if d.param then x.spanBad c d.pbase (d.pbase + 64) else none)

/-- The footprint checked when the parameter block is read: plates, gather list, and data under GATHER (R321). -/
def Tile.paramSpanBad (x : Tile) (c : Bool) (d : Copy) : Option Nat :=
  let rows := if d.total = 0 then 0 else d.total / d.counts.1
  (if d.sGroup then x.spanBad c d.splate (d.splate + rows * ceilDiv d.counts.1 32 : Nat) else none) <|>
  (if d.gather then x.spanBad c d.glist (d.glist + 8 * d.counts.2.1 : Nat) else none) <|>
  (if d.gather then x.dataBad c d else none)

/-! ### Changing an operation -/

/-- The accepted operation in a slot. -/
def Ctx.streamAt (y : Ctx) (slot : Nat) : Option StreamOp := y.stream.find? fun o => o.phase ≠ .queued && o.slot = slot

def State.modStream (s : State) (t : TileId) (c : Bool) (slot : Nat) (f : StreamOp → StreamOp) : State :=
  s.modCtx t c fun y => { y with stream := updateWhere (fun o => o.phase ≠ .queued && o.slot = slot) f y.stream }

/-- The operations of a context that were issued before the one in a slot. -/
def Ctx.earlier (y : Ctx) (slot : Nat) : List StreamOp := y.stream.takeWhile fun o => !(o.phase ≠ .queued && o.slot = slot)

/-- A STREAM event (R483): 0 accepted, 1 suspended, 2 resumed, 3 completed. -/
def State.traceStream (s : State) (t : TileId) (c : Bool) (kind slot opcode code elem : Nat) : State :=
  s.trace t c 5 [(12, kind), (13, slot), (14, opcode), (16, code), (20, elem)]

/-! ### Failures, the record and the finish (R322–R325) -/

/-- Part j of T elements is those from j·T/16 to before (j + 1)·T/16 (R323). -/
def partOf (T n : Nat) : Nat := ((List.range 16).find? fun j => decide (j * T / 16 ≤ n) && decide (n < (j + 1) * T / 16)).getD 0

/-- An element draws an outcome: 0 succeeds, any other code fails (R323). -/
def StreamOp.outcome (o : StreamOp) (n code : Nat) : StreamOp :=
  if code = 0 then o
  else
    let lower := match o.failElem with
      | some m => decide (n < m)
      | none => true
    { o with partmap := o.partmap ||| (1#16 <<< partOf o.total n),
             failElem := if lower then some n else o.failElem,
             failCode := if lower then BitVec.ofNat 4 code else o.failCode }

/-- PARTIAL: some parts failed and some, that have elements, succeeded (R323). -/
def StreamOp.partial? (o : StreamOp) : Bool :=
  let full (j : Nat) : Bool := decide (j * o.total / 16 < (j + 1) * o.total / 16)
  decide (o.partmap ≠ 0) && (List.range 16).any fun j => full j && !o.partmap.getLsbD j

/-- The 16 bytes of a completion record (R323). -/
def StreamOp.recordBytes (o : StreamOp) : List Byte :=
  let word := 2 ^ 31 + b2n o.partial? * 2 ^ 30 + o.flags.toNat * 2 ^ 20 + o.failCode.toNat * 2 ^ 16 +
    o.partmap.toNat
  leBytes 4 word ++ leBytes 4 (min 0xFFFFFFFF o.failGrans.length) ++ leBytes 8 (o.failElem.getD 0xFFFFFFFFFFFFFFFF)

/-- The record of a rejected descriptor (R321). -/
def rejectRecord : List Byte := leBytes 4 0x80060000 ++ leBytes 4 0 ++ leBytes 8 0xFFFFFFFFFFFFFFFF

/-- T_STRM_ERR takes a failure that no record reports (R325). -/
def Ctx.strmError (y : Ctx) (opcode code elem : Nat) : Ctx :=
  { y with strmErr :=
      if y.strmErr.getLsbD 63 then y.strmErr ||| 0x4000000000000000#64
      else (y.strmErr &&& 0x4000000000000000#64) ||| BitVec.ofNat 64 (2 ^ 63 + opcode * 2 ^ 52 + code * 2 ^ 48 + elem % 2 ^ 40) }

/-- The record address of an accepted operation, and whether a failure without one is reported in T_STRM_ERR (R325). -/
def StreamOp.recordAt (o : StreamOp) : Option Nat := o.copy.bind fun d => d.record
def StreamOp.toStrmErr (o : StreamOp) : Bool :=
  match o.op.ins with
  | .sdesc _ _ _ => false
  | _ => o.recordAt.isNone

/-- The operation in a slot finishes: its record, its signal, and its place in the queue (R322). -/
def State.streamFinish (s : State) (t : TileId) (c : Bool) (o : StreamOp) : State :=
  let op := streamOpcode o.op.ins
  let s := match o.recordAt with
    | some a => s.engWrite t c a o.recordBytes
    | none => s
  let s := s.modCtx t c fun y =>
    let y := if o.failElem.isSome && o.toStrmErr then y.strmError op o.failCode.toNat (o.failElem.getD 0) else y
    { y.signalOpt (engWaitSig o.op.ins).sig with stream := eraseFirst (fun x => x = o) y.stream }
  s.traceStream t c 3 o.slot op o.failCode.toNat (o.failElem.getD 0xFFFFFFFFFFFFFFFF)

/-! ### Acceptance (R54, R57, R72, R100, R235, R321) -/

/-- The lowest slot that no accepted operation of the context holds (R332). -/
def Ctx.freeSlot (y : Ctx) : Nat :=
  ((List.range 32).find? fun i => (y.streamAt i).isNone).getD 0

/-- The first operation not yet accepted. -/
def Ctx.nextQueued (y : Ctx) : Option StreamOp := y.stream.find? fun o => o.phase = .queued

/-- Put an accepted operation in place of a queued one, or take it out. -/
def State.replaceQueued (s : State) (t : TileId) (c : Bool) (o? : Option StreamOp) : State :=
  s.modCtx t c fun y =>
    let pre := y.stream.takeWhile fun o => o.phase ≠ .queued
    { y with stream := pre ++ o?.toList ++ y.stream.drop (pre.length + 1) }

/-- Bytes of a scratchpad run as a natural. -/
def Tile.relNat (x : Tile) (c : Bool) (a n : Nat) : Nat := leNat (x.read (x.phys c a) n)

/-- A rejected descriptor finishes: its record, or T_STRM_ERR, and its signal (R321, R325). -/
def State.rejectDone (s : State) (t : TileId) (c : Bool) (o : StreamOp) : State :=
  let op := streamOpcode o.op.ins
  let at? := o.recordAt.filter fun a => (s.tile t).inPart c a 16
  let s := match at? with
    | some a => s.engWrite t c a rejectRecord
    | none => s.modCtx t c fun y => y.strmError op 6 0
  (s.modCtx t c fun y =>
    { y.signalOpt (engWaitSig o.op.ins).sig with stream := eraseFirst (fun x => x = o) y.stream }).traceStream t c 3 o.slot op 6
    0xFFFFFFFFFFFFFFFF

/-- An earlier ACQ or FENCE holds the operation's accesses back (R337, R340). -/
def heldBack (l : List StreamOp) : Bool := l.any fun e => e.acq || e.isFence

/-- A descriptor is rejected: it finishes at once, unless an earlier operation holds its record back (R321, R325, R337). -/
def State.streamReject (s : State) (t : TileId) (c : Bool) (o : StreamOp) : State :=
  let o := { o with phase := .rejected, trans := o.total }
  let s := s.replaceQueued t c (some o)
  if heldBack ((s.ctx t c).earlier o.slot) then s else s.rejectDone t c o

/-- An accepted operation begins, or, an SGET or SPUT of no bytes, finishes (R236). -/
def State.streamBegin (s : State) (t : TileId) (c : Bool) (o : StreamOp) : State :=
  let s := (s.replaceQueued t c (some o)).traceStream t c 0 o.slot (streamOpcode o.op.ins) 0 0
  match o.op.ins with
  | .sget _ _ _ | .sput _ _ _ => if o.total = 0 then s.streamFinish t c o else s
  | _ => s

/-- The partition fault of a stream instruction. -/
def State.streamFault (s : State) (t : TileId) (c : Bool) (o : StreamOp) (a : Nat) : State :=
  (s.replaceQueued t c none).terminate t c 0x0102 (partDetail o.op.pc.toNat 4 a)

/-- Acceptance of an operation whose slot and phase are set; its descriptor and parameter block are read and checked
(R321). -/
def State.streamCheck (s : State) (t : TileId) (c : Bool) (o : StreamOp) : State :=
  let x := s.tile t
  match o.op.ins with
  | .sdesc _ _ _ =>
    let a := o.op.arg 0 / 64 * 64
    match x.spanBad c a (a + 64 : Nat) with
    | some b => s.streamFault t c o b
    | none =>
      match x.badWord (x.phys c a) 64 with
      | some w => (s.replaceQueued t c none).stopUe t c w 4
      | none =>
        let s := s.countCe t (x.singles (x.phys c a) 64)
        let dn := x.relNat c a 64
        let d := descCopy dn 0
        if descBad dn then s.streamReject t c { o with desc := BitVec.ofNat 512 dn }
        else match x.copyBad c d with
          | some b => s.streamFault t c o b
          | none =>
            if d.param then
              match x.badWord (x.phys c d.pbase) 64 with
              | some w => (s.replaceQueued t c none).stopUe t c w 4
              | none =>
                let pn := x.relNat c d.pbase 64
                let d := descCopy dn pn
                let s := s.countCe t (x.singles (x.phys c d.pbase) 64)
                if paramBad d pn then s.streamReject t c { o with desc := BitVec.ofNat 512 dn, param := BitVec.ofNat 512 pn }
                else match x.paramSpanBad c d with
                  | some b => s.streamFault t c o b
                  | none => s.streamBegin t c { o with desc := BitVec.ofNat 512 dn, param := BitVec.ofNat 512 pn }
            else s.streamBegin t c { o with desc := BitVec.ofNat 512 dn }
  | .samo _ _ f =>
    let a := o.op.arg 3 / 8 * 8
    match (if f.rr = 0 then none else x.spanBad c a (a + 8 : Nat)) with
    | some b => s.streamFault t c o b
    | none => s.streamBegin t c o
  | .sget _ _ _ | .sput _ _ _ =>
    match o.copy.bind fun d => x.copyBad c d with
    | some b => s.streamFault t c o b
    | none => s.streamBegin t c o
  | _ => s.streamBegin t c o

/-- STREAM_ACCEPT: the stream engine accepts the next instruction of a context's queue, which takes its count (R55, R57,
R235). -/
def execStreamAccept (t : TileId) (ctx : Bool) (s : State) : Res :=
  let y := s.ctx t ctx
  match y.nextQueued with
  | some o =>
    if s.tileRuns t && !y.streamHold && !y.saving && (s.tile t).mayTake ctx 5 (engWaitSig o.op.ins).wait then
      let s := s.modCtx t ctx fun y => y.takeOpt (engWaitSig o.op.ins).wait
      .next (s.streamCheck t ctx { o with phase := .running, slot := y.freeSlot })
    else .next s
  | none => .next s

/-! ### Ordering (R337, R338, R340) -/

/-- An earlier operation holds a REL access to some devices back: its memory side lies there, or is not yet known. -/
def relBlocked (l : List StreamOp) (devs : List Nat) : Bool :=
  l.any fun e => decide (e.trans < e.total) || devs.any fun d => e.devs.contains d

/-! ### Translation (R329, R332, R333) -/

/-- The page, among those translated, that holds an address. -/
def pageOf (l : List XlatPage) (a : Nat) : Option XlatPage := l.find? fun p => decide (p.va ≤ a) && decide (a < p.va + p.size)

/-- The virtual addresses of the piece at element n and the number of its elements, or the uncorrectable word of its
gather-list entry (R100, R319). -/
def State.pieceAddrs (s : State) (t : TileId) (c : Bool) (o : StreamOp) (n : Nat) : Except Nat (List Nat × Nat) :=
  match o.op.ins, o.copy with
  | _, some d =>
    let x := s.tile t
    if d.gather then
      let a := d.glist + 8 * d.rowOf n
      match x.badWord (x.phys c a) 8 with
      | some w => .error w
      | none => let p := d.piece n (sintOf 64 (x.relNat c a 8)); .ok (p.addrs, p.cnt)
    else let p := d.piece n ((d.rowOf n : Int) * d.ms.1); .ok (p.addrs, p.cnt)
  | _, none => .ok ((List.range 8).map fun i => o.op.arg 0 / 8 * 8 + i, 1)

/-- Advance `trans` over the pieces whose addresses are covered: what each translates to is kept until its accesses issue (R329). -/
def State.transAdvance (s : State) (t : TileId) (c : Bool) : Nat → StreamOp → StreamOp
  | 0, o => o
  | fuel + 1, o =>
    if o.trans ≥ o.total then o
    else match s.pieceAddrs t c o o.trans with
      | .ok (l, cnt) =>
        let ps := (l.filterMap (pageOf o.pages)).eraseDups
        if l.all fun a => (pageOf o.pages a).isSome then
          let pas := l.map fun a => match pageOf o.pages a with
            | some p => p.pa + (a - p.va)
            | none => 0
          let devs := pas.foldl (fun ds a => if ds.contains (a / 2 ^ 41) then ds else ds ++ [a / 2 ^ 41]) o.devs
          let x : XlatPiece := { pas := pas, via := ps.flatMap fun p => p.via, stale := false }
          State.transAdvance s t c fuel { o with trans := o.trans + max 1 cnt, devs := devs, ready := o.ready ++ [x] }
        else o
      | .error _ => o

/-- The recorded translation fault of a context (T_XLAT_FAULT, R333). -/
def Ctx.recordXlat (y : Ctx) (slot opcode : Nat) (f : XlatFault) (multi : Bool) : Ctx :=
  { y with
    xlatVa := f.va
    xlatElem := BitVec.ofNat 64 f.elem
    xlatInfo := BitVec.ofNat 64 (2 ^ 63 + b2n multi * 2 ^ 62 + opcode * 2 ^ 48 + slot * 2 ^ 40 + f.cause.toNat * 2 ^ 33 +
      b2n f.write * 2 ^ 32 + f.level.toNat * 2 ^ 20 + f.index.toNat) }

/-- A descriptor is suspended (R332, R333, R464): the first fault fills the record and is logged, a later one sets MULTI. -/
def State.suspend (s : State) (t : TileId) (c : Bool) (o : StreamOp) (f : XlatFault) : State :=
  let op := streamOpcode o.op.ins
  let s := s.modStream t c o.slot fun _ => { o with phase := .suspended f, pages := [] }
  let s := s.traceStream t c 1 o.slot op 0 f.elem
  if (s.ctx t c).xlatInfo.getLsbD 63 then
    let open? (r : Record) : Bool := decide (r.code = 0x109) && decide (r.unit = t.toNat) && decide (r.ctx = c)
    let last := (s.log.errs.filter open?).getLast?
    let again (r : Record) : Record := { r with count := satInc r.count, lastRc := s.time }
    let s := s.modCtx t c fun y => { y with xlatInfo := y.xlatInfo ||| 0x4000000000000000#64 }
    { s with log := { s.log with errs := updateWhere (fun r => some r = last) again s.log.errs } }
  else
    let s := s.modCtx t c fun y => y.recordXlat o.slot op f false
    s.record 0x0109 0 0 t.toNat c (s.posOf t) 0
      (detail [(32, o.slot), (33, f.cause.toNat), (34, f.level.toNat), (36, f.index.toNat), (40, f.va.toNat), (48, f.elem)])

/-- Translate one page for an operation (R329); the operation is suspended at a fault, and dies at an uncorrectable
gather-list entry. -/
def State.transStep (s : State) (t : TileId) (c : Bool) (o : StreamOp) : State :=
  if o.trans ≥ o.total then s
  else match s.pieceAddrs t c o o.trans with
    | .error w => (s.modStream t c o.slot fun o => { o with phase := .dead, ready := [] }).stopUe t c w 4
    | .ok (l, _) =>
      let go (s : State) (o : StreamOp) : State :=
        let o := s.transAdvance t c o.total o
        s.modStream t c o.slot fun _ => o
      match l.find? fun a => (pageOf o.pages a).isNone with
      | none => go s o
      | some a =>
        match s.translate (regionOf t) (s.ctx t c).asid a o.writes with
        | (s, .wait) => s
        | (s, .page p _ _) => go s { o with pages := o.pages ++ [p] }
        | (s, .fault cause level index) =>
          s.suspend t c o
            { cause := BitVec.ofNat 3 cause, level := BitVec.ofNat 4 level, index := BitVec.ofNat 9 index,
              va := BitVec.ofNat 64 a, write := o.writes, elem := o.trans }

/-! ### The scratchpad side (R56, R100, R101, R319, R334) -/

/-- Bytes of a scratchpad run, each with whether its word is uncorrectable. -/
def Tile.readPoison (x : Tile) (c : Bool) (a n : Nat) : List (Byte × Bool) :=
  (List.range n).map fun i =>
    let p := x.phys c (a + i)
    (SMap.get 0 x.sp p, (x.wordErr (p / 8)).bad)

/-- A stream reads words of a scratchpad for data that it writes out: single-bit errors are corrected and counted, uncorrectable words
noted and recorded (R99, R100, R462). -/
def State.streamReads (s : State) (t : TileId) (c : Bool) (words : List Nat) : State :=
  let x := s.tile t
  let ws := words.eraseDups
  let s := s.countCe t (ws.filter fun w => x.wordErr w = .single).length
  s.each (ws.filter fun w => (x.wordErr w).bad) fun s w => s.ueSeen t c w 2

/-- Pop 64-byte units from a circular region until `need` bytes are held; a refused pop brings zeros (R92, R93). -/
def State.popHeld (s : State) (t : TileId) (c : Bool) (cr need : Nat) : Nat → List (Byte × Bool) → State × List (Byte × Bool)
  | 0, h => (s, h)
  | fuel + 1, h =>
    if h.length ≥ need then (s, h)
    else
      let r := ((s.ctx t c).cr cr).pop 64
      let s := s.modCtx t c fun y => y.setCr cr r.2
      match r.1 with
      | some a =>
        let l := (s.tile t).readPoison c a 64
        State.popHeld (s.streamReads t c (wordsOf ((s.tile t).phys c a) 64)) t c cr need fuel (h ++ l)
      | none => State.popHeld s t c cr need fuel (h ++ List.replicate 64 (0, false))

/-- Write bytes, poisoning the words of those that carry poison (R101). -/
def State.writePoison (s : State) (t : TileId) (c : Bool) (a : Nat) (l : List (Byte × Bool)) : State :=
  let s := s.engWrite t c a (l.map (·.1))
  s.each (numbered 0 l) fun s b =>
    if b.2.2 then s.modTile t fun x => x.markWords (x.phys c (a + b.1)) 1 .poisoned else s

/-- Push the whole units that are held, and at the end the rest padded with zeros (R319). The last `still` bytes are not complete. -/
def State.pushHeld (s : State) (t : TileId) (c : Bool) (cr : Nat) (last : Bool) (still : Nat) :
    Nat → List (Byte × Bool) → State × List (Byte × Bool)
  | 0, h => (s, h)
  | fuel + 1, h =>
    if h.length ≥ 64 + still ∨ (last ∧ h ≠ []) then
      let u := h.take 64 ++ List.replicate (64 - h.length) (0, false)
      let r := ((s.ctx t c).cr cr).push 64
      let s := s.modCtx t c fun y => y.setCr cr r.2
      let s := match r.1 with
        | some a => s.writePoison t c a u
        | none => s
      State.pushHeld s t c cr last still fuel (h.drop 64)
    else (s, h)

/-- A byte that is to be written: its address, its bits, which of them are written, and whether it is poisoned. -/
structure OutByte where
  addr : Nat
  val : Byte
  mask : Byte
  poison : Bool

/-- A byte joins those to be written: elements that share a byte write it together. -/
def putOut (l : List OutByte) (b : OutByte) : List OutByte :=
  if l.any fun e => e.addr = b.addr then
    updateWhere (fun e => e.addr = b.addr) (fun e =>
      { e with val := (e.val &&& ~~~ b.mask) ||| (b.val &&& b.mask), mask := e.mask ||| b.mask, poison := e.poison || b.poison }) l
  else l ++ [b]

/-- Runs of consecutive addresses, each with its bytes. -/
def outRuns (l : List OutByte) : List (Nat × List OutByte) :=
  l.foldl (fun acc b => match acc.getLast? with
    | some r => if r.1 + r.2.length = b.addr then acc.dropLast ++ [(r.1, r.2 ++ [b])] else acc ++ [(b.addr, [b])]
    | none => [(b.addr, [b])]) []

/-- Write what landed, run by run: a word that a run covers is written whole (R99, R101). -/
def State.writeOuts (s : State) (t : TileId) (c : Bool) (l : List OutByte) : State :=
  s.each (outRuns (l.foldl putOut [])) fun s r =>
    let x := s.tile t
    let old (b : OutByte) : Byte := SMap.get 0 x.sp (x.phys c b.addr)
    s.writePoison t c r.1 (r.2.map fun b => ((old b &&& ~~~ b.mask) ||| (b.val &&& b.mask), b.poison))

/-! ### Conversion of a piece (R118–R126, R320) -/

/-- Conversion parameters of the piece at element n. -/
def Copy.conv? (d : Copy) (n : Nat) : ConvArgs :=
  { sfmt := d.sfmt, dfmt := d.dfmt, sat := d.sat, supply := if isGroup d.dfmt then d.supply else none,
    mode := fun i => convMode d.mode 0 d.dfmt d.key d.stream d.e0 (n + i) }

/-- The code of an element among bytes that carry codes: its own bytes', then the plate's. -/
def elemCode (w bit : Nat) (l : List (BitVec 4)) (plate : BitVec 4) (j : Nat) : BitVec 4 :=
  let lo := (bit + j * w) / 8
  let mine := (List.range ((bit + j * w + w - 1) / 8 - lo + 1)).map fun i => l.getD (lo + i) 0
  (mine ++ [plate]).foldl (fun a b => if a = 0 then b else a) 0

/-- The codes of `n` elements of w bits that start at a bit of some bytes (R107). -/
def codesAt (w bit : Nat) (l : List Byte) (n : Nat) : List Nat := (List.range n).map fun i => bits (leNat l) (bit + w * i) w

/-- Convert the bytes of a piece, its plate last: the codes and plate on the other side, the outcome of each element there, and
the flags. A copy keeps its bytes. An element whose read failed is converted like any other, and its flags count (R126 does not say;
assumption 82). -/
def Copy.convert (d : Copy) (n cnt : Nat) (sw sbit : Nat) (sGroup dGroup : Bool) (dCount : Nat) (l : List (Byte × BitVec 4)) :
    List Nat × Option Byte × List (BitVec 4) × Nat :=
  let len := ceilDiv (sbit + cnt * sw) 8
  let plate := if sGroup then l.getD len (0, 0) else (0, 0)
  let own := (List.range cnt).map (elemCode sw sbit ((l.take len).map (·.2)) plate.2)
  let all := own.foldl (fun a b => if a = 0 then b else a) 0
  let codes := if dGroup then own.map fun _ => all else own
  let src := codesAt sw sbit ((l.take len).map (·.1)) cnt
  if d.conv then
    let r := convertArray (d.conv? n) src (if sGroup then [plate.1.toNat] else [])
    (r.1.take cnt ++ List.replicate (dCount - cnt) 0, if dGroup then some (BitVec.ofNat 8 (r.2.1.getD 0 0)) else none, codes, r.2.2)
  else (src, none, codes, 0)

/-- Codes of w bits packed from a bit of a byte on, and which bits are theirs; at the end of a row to the end of the byte (R107,
R319). A code that is not `good` takes no bits. -/
def packBits (w bit : Nat) (codes : List (Nat × Bool)) (rowEnd : Bool) : List (Byte × Byte) :=
  let n := bit + w * codes.length
  let v := codes.foldr (fun c a => c.1 % 2 ^ w + 2 ^ w * a) 0 * 2 ^ bit
  let m := codes.foldr (fun c a => (if c.2 then 2 ^ w - 1 else 0) + 2 ^ w * a) 0 * 2 ^ bit
  let tail := if rowEnd && (codes.getLast?.map (·.2)).getD false then 2 ^ (8 * ceilDiv n 8) - 2 ^ n else 0
  (List.range (ceilDiv n 8)).map fun k => (BitVec.ofNat 8 (bits v (8 * k) 8), BitVec.ofNat 8 (bits (m + tail) (8 * k) 8))

/-- The elements that overlap byte k of a piece of `cnt` elements. -/
def overlap (w bit cnt k : Nat) : List Nat :=
  (List.range cnt).filter fun j => decide ((bit + j * w) / 8 ≤ k) && decide (k ≤ (bit + j * w + w - 1) / 8)

/-! ### Landing what was read (R322, R324, R335, R345) -/

/-- A GET's batch on its way into the scratchpad: the state, the operation, and the bytes to be written so far. -/
structure Landed where
  st : State
  op : StreamOp
  out : List OutByte

/-- One piece of a GET lands: elements that succeeded are to be written, poisoned ones as poisoned words, others not at all, or
as zeros in a circular region (R319, R324); an H6 row off its line takes free values (U3). -/
def Landed.piece (a : Landed) (t : TileId) (c : Bool) (d : Copy) (p : Piece) (l : List (Byte × BitVec 4)) : Landed :=
  let r := d.convert p.n p.cnt d.mw p.mbit d.mGroup d.sGroup (d.sCount p.cnt) l
  let codes := r.2.2.1
  let o := (numbered 0 codes).foldl (fun o e => o.outcome (p.n + e.1) e.2.toNat) a.op
  let o := { o with flags := o.flags ||| BitVec.ofNat 5 r.2.2.2 }
  let code (j : Nat) : BitVec 4 := codes.getD (min j (p.cnt - 1)) 0
  let good (j : Nat) : Bool := code j = 0 || code j = 4
  let poison (k : Nat) : Bool := (overlap d.sw p.sbit (d.sCount p.cnt) k).any fun j => code j = 4
  let plate := match r.2.1, p.splate with
    | some v, some b => if good 0 then [({ addr := b, val := v, mask := 0xFF, poison := decide (code 0 = 4) } : OutByte)] else []
    | _, _ => []
  if d.crm then
    let l := (numbered 0 r.1).map fun e => (if good e.1 then e.2 else 0, true)
    let bs := (numbered 0 (packBits d.sw p.sbit l p.rowEnd)).map fun b => (b.2.1, poison b.1)
    let held := match p.sbit, o.held.getLast?, bs with
      | _ + 1, some h, b :: rest => o.held.dropLast ++ (h.1 ||| b.1, h.2 || b.2) :: rest
      | _, _, _ => o.held ++ bs
    let still := b2n (!p.rowEnd && decide ((p.sbit + d.sw * p.cnt) % 8 ≠ 0))
    let h := a.st.pushHeld t c d.cr false still held.length held
    { st := h.1, op := { o with held := h.2 }, out := a.out ++ plate }
  else
    let l := (numbered 0 r.1).map fun e => (e.2, good e.1)
    let bs := numbered 0 (packBits d.sw p.sbit l p.rowEnd)
    let free := (a.st.freeBits (8 * bs.length)).toNat
    let val (b : Nat × Byte × Byte) : Byte := if p.odd then BitVec.ofNat 8 (bits free (8 * b.1) 8) else b.2.1
    let outs := (bs.filter fun b => b.2.2 ≠ 0).map fun b =>
      ({ addr := p.sp + b.1, val := val b, mask := b.2.2, poison := poison b.1 } : OutByte)
    { st := if p.odd then a.st.tookFree else a.st, op := o, out := a.out ++ outs ++ plate }

/-- Split a batch's bytes into its pieces and land each, from element n on. -/
def landPieces (t : TileId) (c : Bool) (d : Copy) (stop : Nat) : Nat → Nat → List (Byte × BitVec 4) → Landed → Landed
  | 0, _, _, a => a
  | fuel + 1, n, l, a =>
    if n ≥ stop then a
    else
      let p := d.piece n 0
      let k := p.mlen + p.mplate.toList.length
      landPieces t c d stop fuel (n + max 1 p.cnt) (l.drop k) (a.piece t c d p (l.take k))

/-- Account the elements of a PUT's batch by the codes that its bytes drew. -/
def putOutcomes (d : Copy) (stop : Nat) : Nat → Nat → List (BitVec 4) → StreamOp → StreamOp
  | 0, _, _, o => o
  | fuel + 1, n, l, o =>
    if n ≥ stop then o
    else
      let p := d.piece n 0
      let plate := if d.mGroup then l.getD p.mlen 0 else 0
      let own := (List.range p.cnt).map (elemCode d.mw p.mbit (l.take p.mlen) plate)
      let o := (numbered 0 own).foldl (fun o e => o.outcome (n + e.1) e.2.toNat) o
      putOutcomes d stop fuel (n + max 1 p.cnt) (l.drop (p.mlen + p.mplate.toList.length)) o

/-- The first failure that the bytes of a batch drew. -/
def firstCode (l : List (Byte × BitVec 4)) : BitVec 4 := l.foldl (fun a e => if a = 0 then e.2 else a) 0

/-- A batch whose answers are all in: failed granules are counted, and what was read is written (R322–R325, R335). -/
def State.landBatch (s : State) (t : TileId) (c : Bool) (o : StreamOp) (b : Batch) : State × StreamOp :=
  let bad := ((b.addrs.zip b.bytes).filter fun e => e.2.2 ≠ 0).map fun e => e.1 / 64
  let o := { o with failGrans := bad.foldl (fun l g => if l.contains g then l else l ++ [g]) o.failGrans }
  match o.op.ins, o.copy with
  | .samo _ _ f, _ =>
    let code := firstCode b.bytes
    let l := if code = 0 then b.bytes.map (·.1) else leBytes 8 0
    let s := if f.rr = 0 then s else s.engWrite t c (o.op.arg 3 / 8 * 8) l
    (s, o.outcome 0 code.toNat)
  | _, some d =>
    if d.get then
      let a := landPieces t c d b.stop (b.stop - b.first) b.first b.bytes { st := s, op := o, out := [] }
      (a.st.writeOuts t c a.out, a.op)
    else (s, putOutcomes d b.stop (b.stop - b.first) b.first (b.bytes.map (·.2)) o)
  | _, none => (s, o.outcome 0 (firstCode b.bytes).toNat)

/-- Land the finished batches at the head of an operation, in element order. -/
def State.landReady (s : State) (t : TileId) (c : Bool) : Nat → StreamOp → State × StreamOp
  | 0, o => (s, o)
  | fuel + 1, o =>
    match o.batches with
    | b :: rest =>
      if b.wait = [] then
        let r := s.landBatch t c o b
        State.landReady r.1 t c fuel { r.2 with batches := rest }
      else (s, o)
    | [] => (s, o)

/-- Land what is ready for the operation in a slot. -/
def State.streamLand (s : State) (t : TileId) (c : Bool) (o : StreamOp) : State :=
  let r := s.landReady t c o.batches.length o
  r.1.modStream t c o.slot fun _ => r.2

/-! ### Answers (R322, R323, R355) -/

/-- A code joins what a byte has drawn: the first failure stays. -/
def joinCode (a b : BitVec 4) : BitVec 4 := if a = 0 then b else a

/-- The answer for one granule of a batch: its bytes, where it was read, and its code. -/
def Batch.answer (b : Batch) (g : Nat) (data : Option (List Byte)) (code : BitVec 4) : Batch :=
  let upd (e : Nat × Byte × BitVec 4) : Byte × BitVec 4 :=
    if e.1 / 64 = g then
      ((match data with
        | some l => if code = 0 ∨ code = 4 then l.getD (e.1 % 64) 0 else e.2.1
        | none => e.2.1), joinCode e.2.2 code)
    else e.2
  { b with bytes := (b.addrs.zip b.bytes).map upd, wait := b.wait.erase g }

/-- The answer to a request of a stream operation (R323); the request is closed. -/
def State.streamAnswer (s : State) (r : MemReq) (data : Option (List Byte)) (code : BitVec 4) : State :=
  let s := { s with memory := { s.memory with reqs := eraseFirst (fun q => q = r) s.memory.reqs } }
  match (s.ctx r.tile r.ctx).streamAt r.slot with
  | some o =>
    s.streamLand r.tile r.ctx
      { o with batches := updateWhere (fun b => b.first = r.batch) (fun b => b.answer r.gran data code) o.batches }
  | none => s

/-! ### Access (R314, R329, R336, R343–R345, R355, R357, R359, R368) -/

/-- What a stream operation asks of a granule. -/
inductive Ask where
  | read
  | write (ws : List (Nat × Byte)) (poison : Bool)
  | amo (aop : Nat) (off : Nat) (x cmp : Word)
deriving DecidableEq, Repr

/-- Contiguous runs of the bytes written in a granule: first offset and bytes (R355). -/
def writeRuns (ws : List (Nat × Byte)) : List (Nat × List Byte) :=
  let byOff (i : Nat) : Option Byte := (ws.filter fun w => w.1 = i).getLast?.map (·.2)
  let step (acc : List (Nat × List Byte)) (i : Nat) : List (Nat × List Byte) :=
    match byOff i with
    | none => acc
    | some b =>
      match acc.getLast? with
      | some (o, l) => if o + l.length = i then acc.dropLast ++ [(o, l ++ [b])] else acc ++ [(i, [b])]
      | none => acc ++ [(i, [b])]
  (List.range 64).foldl step []

/-- A new request, with its transaction id. -/
def State.newReq (s : State) (o : StreamOp) (t : TileId) (dev : Option (BitVec 15)) (kind : BitVec 4) (g batch : Nat) :
    State × BitVec 32 :=
  let tx := s.memory.nextTx
  let r : MemReq :=
    { txid := tx, dev := dev, tile := t, ctx := o.op.ctx, slot := o.slot, kind := kind, gran := g, batch := batch,
      origin := none, issued := s.time }
  ({ s with memory := { s.memory with nextTx := tx + 1, reqs := s.memory.reqs ++ [r] } }, tx)

/-- An access of another device: a request packet for each run, or UNREACH where no route carries it (R359, R368). -/
def State.askRemote (s : State) (o : StreamOp) (t : TileId) (g first : Nat) (b : Batch) (a : Ask) : State × Batch :=
  let dev := BitVec.ofNat 15 (64 * g / 2 ^ 41)
  let e := s.routeEntry dev.toNat
  let newAop : Bool := match a with
    | .amo n _ _ _ => decide (n ≥ 5)
    | _ => false
  if !entryOk e || (entryLegacy e && newAop) then (s, b.answer g none 2)
  else match a with
    | .read =>
      let r := s.newReq o t (some dev) 4 g first
      (r.1.sendPkt (r.1.mkPkt 4 dev r.2 (64 * g) 1 []), { b with wait := b.wait ++ [g] })
    | .write ws poison =>
      (writeRuns ws).foldl (fun acc run =>
        let r := acc.1.newReq o t (some dev) 5 g first
        let data := List.replicate run.1 0 ++ run.2 ++ List.replicate (64 - run.1 - run.2.length) 0
        (r.1.sendPkt (r.1.mkPkt 5 dev r.2 (64 * g) (run.1 + (run.1 + run.2.length - 1) * 256) data
          (if poison then 1 else 0)), { acc.2 with wait := acc.2.wait ++ [g] })) (s, b)
    | .amo n off x cmp =>
      let r := s.newReq o t (some dev) 6 g first
      (r.1.sendPkt (r.1.mkPkt 6 dev r.2 (64 * g + off) n (leBytes 8 x.toNat ++ leBytes 8 cmp.toNat ++ List.replicate 48 0)),
        { b with wait := b.wait ++ [g] })

/-- An access of this device's package memory or host window (R314, R335, R390). -/
def State.askLocal (s : State) (o : StreamOp) (t : TileId) (g first : Nat) (b : Batch) (a : Ask) : State × Batch :=
  let l := 64 * g % 2 ^ 41
  let gl := l / 64
  match s.locKind l, a with
  | .none, _ => (s, b.answer g none 1)
  | .host, .amo _ _ _ _ => (s, b.answer g none 1)
  | .host, .read =>
    let r := s.newReq o t none 4 g first
    (r.1.emit (.read r.2 (l - hostWinBase) 64), { b with wait := b.wait ++ [g] })
  | .host, .write ws poison =>
    ((writeRuns ws).foldl (fun s run => s.emit (.write (l - hostWinBase + run.1) run.2 poison)) s, b)
  | .package, _ =>
    if s.stackReady (s.place l).stack = .refused ∨ s.memory.intlvBusy then (s, b.answer g none 5)
    else match a with
      | .read =>
        let r := s.granReadAt gl 0
        (r.1, b.answer g (some r.2.1) (if r.2.2 then 4 else 0))
      | .write ws poison =>
        let r := s.granWrite gl ws poison
        (r.1, b.answer g none (if r.2 then 4 else 0))
      | .amo n off x cmp =>
        match s.granAtomic (l + off) n x cmp with
        | (s, some old) => (s, b.answer g (some (List.replicate off 0 ++ leBytes 8 old.toNat)) 0)
        | (s, none) => (s, b.answer g none 4)

/-- The distinct granules of some addresses, in order. -/
def gransIn (l : List Nat) : List Nat := l.foldl (fun gs a => if gs.contains (a / 64) then gs else gs ++ [a / 64]) []

/-- What an operation asks of granule g for a batch. -/
def StreamOp.ask (o : StreamOp) (b : Batch) (g : Nat) : Ask :=
  match o.op.ins with
  | .samo _ _ f => .amo f.aop.toNat (b.addrs.getD 0 0 % 64) (o.op.regs.getD 1 0) (o.op.regs.getD 2 0)
  | _ =>
    if o.writes then
      let mine := (b.addrs.zip b.bytes).filter fun e => e.1 / 64 = g
      .write (mine.map fun e => (e.1 % 64, e.2.1)) (mine.any fun e => e.2.2 = 4)
    else .read

/-- Issue a batch's accesses, granule by granule. -/
def State.askAll (s : State) (t : TileId) (o : StreamOp) (b : Batch) : State × Batch :=
  (gransIn b.addrs).foldl (fun acc g =>
    let a := o.ask acc.2 g
    if s.isOwn (BitVec.ofNat 15 (64 * g / 2 ^ 41)) then acc.1.askLocal o t g b.first acc.2 a
    else acc.1.askRemote o t g b.first acc.2 a) (s, b)

/-! ### Issue of an operation's accesses (R329, R337, R345) -/

/-- The piece at element n, its bytes for a PUT read from the scratchpad and converted: the state, the bytes with their codes, the
operation with what it holds and its flags, and the count. `m` bytes lie on the memory side. -/
def State.fillPiece (s : State) (t : TileId) (c : Bool) (o : StreamOp) (n m : Nat) :
    State × List (Byte × BitVec 4) × StreamOp × Nat :=
  match o.copy with
  | none =>
    (s, (leBytes 8 (match o.op.ins with
      | .sflag _ _ _ _ _ _ => (o.op.arg 1)
      | _ => 0)).map fun b => (b, 0), o, 1)
  | some d =>
    let p := d.piece n 0
    if d.get then (s, List.replicate m (0, 0), o, p.cnt)
    else
      let h := if d.crm then s.popHeld t c d.cr p.slen (p.slen + 1) o.held
        else if p.odd then (s.tookFree, (leBytes p.slen (s.freeBits (8 * p.slen)).toNat).map fun b => (b, false))
        else (s.streamReads t c (wordsOf ((s.tile t).phys c p.sp) p.slen), (s.tile t).readPoison c p.sp p.slen)
      let s := h.1
      let src := h.2.take p.slen
      let plate := match p.splate with
        | some a => (s.tile t).readPoison c a 1
        | none => []
      let s := match p.splate with
        | some a => s.streamReads t c (wordsOf ((s.tile t).phys c a) 1)
        | none => s
      let coded := (src ++ plate).map fun b => (b.1, if b.2 then (4 : BitVec 4) else 0)
      let r := d.convert p.n p.cnt d.sw p.sbit d.sGroup d.mGroup (d.mCount p.cnt) coded
      let code (k : Nat) : BitVec 4 :=
        if (overlap d.mw p.mbit (d.mCount p.cnt) k).any fun j => r.2.2.1.getD (min j (p.cnt - 1)) 0 = 4 then 4 else 0
      let bs := (numbered 0 (packBits d.mw p.mbit (r.1.map fun v => (v, true)) p.rowEnd)).map fun b =>
        (if b.1 = 0 ∧ p.mbit ≠ 0 then b.2.1 ||| o.part else b.2.1, code b.1)
      let whole := p.rowEnd || decide ((p.mbit + d.mw * p.cnt) % 8 = 0)
      let used := if p.rowEnd then p.slen else (p.sbit + d.sw * p.cnt) / 8
      (s, bs ++ r.2.1.toList.map fun v => (v, if r.2.2.1.any fun e => e = 4 then (4 : BitVec 4) else 0),
        { o with held := if d.crm then h.2.drop used else o.held,
                 part := if whole then 0 else (bs.getLast?.map (·.1)).getD 0,
                 flags := o.flags ||| BitVec.ofNat 5 r.2.2.2 }, p.cnt)

/-- Gather the translated pieces that may be issued together. -/
def State.fillBatch (s : State) (t : TileId) (c : Bool) (free : List Nat → Bool) :
    Nat → StreamOp → Batch → State × StreamOp × Batch
  | 0, o, b => (s, o, b)
  | fuel + 1, o, b =>
    match o.ready with
    | [] => (s, o, b)
    | x :: rest =>
      if free x.pas then
        let r := s.fillPiece t c o o.next x.pas.length
        let next := o.next + max 1 r.2.2.2
        State.fillBatch r.1 t c free fuel { r.2.2.1 with next := next, ready := rest }
          { b with stop := next, addrs := b.addrs ++ x.pas, bytes := b.bytes ++ r.2.1
                   via := b.via ++ x.via.filter (fun e => !b.via.contains e), stale := b.stale || x.stale }
      else (s, o, b)

/-- A copy that writes memory issues when its translation has come to its end or to a fault, so that it writes no granule twice (R329,
R336; assumption 28). -/
def StreamOp.mayIssue (o : StreamOp) : Bool :=
  o.copy.isNone || !o.writes || decide (o.trans ≥ o.total) || o.suspendedNow

/-- Issue the accesses of the translated elements of an operation, unless earlier operations hold them back or a stack is
being woken (R329, R337, R390). -/
def State.issueStep (s : State) (t : TileId) (c : Bool) (o : StreamOp) : State :=
  let before := (s.ctx t c).earlier o.slot
  if heldBack before ∨ ¬ o.mayIssue then s
  else
    let free (pas : List Nat) : Bool := !o.rel || !relBlocked before (pas.map fun a => a / 2 ^ 41)
    let r := s.fillBatch t c free o.ready.length o
      { first := o.next, stop := o.next, addrs := [], bytes := [], wait := [], via := [], stale := false }
    let b := r.2.2
    if b.addrs = [] then s
    else
      let asleep := (gransIn b.addrs).filter fun g =>
        s.isOwn (BitVec.ofNat 15 (64 * g / 2 ^ 41)) && decide (64 * g % 2 ^ 41 < s.capacity) &&
          decide (s.stackReady (s.place (64 * g % 2 ^ 41)).stack = .waking)
      if asleep ≠ [] then s.each asleep fun s g => s.switchOn (hbmDomain (s.place (64 * g % 2 ^ 41)).stack)
      else
        let a := r.1.askAll t r.2.1 b
        a.1.streamLand t c { r.2.1 with batches := r.2.1.batches ++ [a.2] }

/-- TRANSLATION_WALK: for the operation in a slot one page is translated, or its translation faults, and the accesses of
translated elements issue (R329, R332, R333, R337). -/
def execTranslationWalk (t : TileId) (ctx : Bool) (slot : Nat) (s : State) : Res :=
  if ¬ s.tileRuns t then .next s
  else match (s.ctx t ctx).streamAt slot with
    | some o =>
      let s := match o.phase with
        | .running => s.transStep t ctx o
        | _ => s
      match (s.ctx t ctx).streamAt slot with
      | some o =>
        .next (match o.phase with
          | .running | .suspended _ => s.issueStep t ctx o
          | _ => s)
      | none => .next s
    | none => .next s

/-! ### Completion (R322) and fences (R340) -/

/-- Every element has been performed or has failed. -/
def StreamOp.elementsDone (o : StreamOp) : Bool := decide (o.next ≥ o.total) && decide (o.batches = [])

/-- STREAM_COMPLETE: the operation in a slot reaches its completion point (R322). -/
def execStreamComplete (t : TileId) (ctx : Bool) (slot : Nat) (s : State) : Res :=
  let y := s.ctx t ctx
  match y.streamAt slot with
  | some o =>
    if o.isFence || !s.tileRuns t then .next s
    else match o.phase with
      | .dead =>
        .next (if o.batches = [] then s.modCtx t ctx fun y => { y with stream := eraseFirst (fun x => x = o) y.stream } else s)
      | .rejected => .next (if heldBack (y.earlier slot) then s else s.rejectDone t ctx o)
      | .running =>
        if o.elementsDone && !heldBack (y.earlier slot) then
          match o.copy with
          | some d =>
            if d.get && d.crm then
              .next ((s.pushHeld t ctx d.cr true 0 (o.held.length + 1) o.held).1.streamFinish t ctx o)
            else .next (s.streamFinish t ctx o)
          | none => .next (s.streamFinish t ctx o)
        else .next s
      | _ => .next s
  | none => .next s

/-- The scratchpad side of an earlier operation is done (FENCE.LOCAL). -/
def StreamOp.scratchDone (o : StreamOp) : Bool :=
  match o.op.ins, o.copy with
  | .sflag _ _ _ _ _ _, _ => true
  | _, some d => if d.get then o.elementsDone && decide (o.held = []) else decide (o.next ≥ o.total)
  | _, none => o.elementsDone

/-- What a fence waits for of an earlier operation, which is not complete (R340). -/
def State.fenceFree (s : State) (scope : BitVec 2) (o : StreamOp) : Bool :=
  match scope.toNat with
  | 0 => o.phase ≠ .queued && !o.isFence && o.scratchDone
  | 1 =>
    o.phase ≠ .queued && !o.isFence && o.scratchDone && !decide (o.trans < o.total) &&
      !o.devs.contains s.fabric.devId.toNat
  | _ => false

/-- FENCE_ORDERING_POINT: everything that the fence in a slot waits for is done; it signals and leaves the queue. -/
def execFenceOrderingPoint (t : TileId) (ctx : Bool) (slot : Nat) (s : State) : Res :=
  let y := s.ctx t ctx
  match y.streamAt slot with
  | some o =>
    match o.op.ins with
    | .fence _ _ scope =>
      .next (if s.tileRuns t && (y.earlier slot).all (s.fenceFree scope) then s.streamFinish t ctx o else s)
    | _ => .next s
  | none => .next s

/-! ### Resume (R333, R334) -/

/-- The record is refilled from the lowest-numbered slot still suspended, or VALID clears (R333). -/
def Ctx.refillXlat (y : Ctx) : Ctx :=
  let susp := y.stream.filter StreamOp.suspendedNow
  match (List.range 32).findSome? fun i => susp.find? fun o => o.slot = i with
  | some o =>
    match o.phase with
    | .suspended f => y.recordXlat o.slot (streamOpcode o.op.ins) f (decide (susp.length > 1))
    | _ => y
  | none => { y with xlatInfo := y.xlatInfo &&& ~~~ 0xC000000000000000#64 }

/-- Resume the suspended slots of a mask in a context. -/
def State.resumeSlots (s : State) (t : TileId) (c : Bool) (mask : Nat) : State :=
  let y := s.ctx t c
  let hit (o : StreamOp) : Bool := o.suspendedNow && mask.testBit o.slot
  let recorded := bits y.xlatInfo.toNat 40 5
  let again := y.xlatInfo.getLsbD 63 && (y.stream.any fun o => hit o && decide (o.slot = recorded))
  let s := s.each (y.stream.filter hit) fun s o =>
    s.traceStream t c 2 o.slot (streamOpcode o.op.ins) 0 (match o.phase with
      | .suspended f => f.elem
      | _ => 0)
  let s := s.modCtx t c fun y => { y with stream := updateWhere hit (fun o => { o with phase := .running, pages := [] }) y.stream }
  let old := s.ctx t c
  if again then s.modCtx t c fun _ => old.refillXlat else s

end Sys2Proof.Machine
end

