-- ==== Sys2Proof/Machine/Link.lean ====
section
/-! DEFINITION. The fabric's ports (R346–R353, R359–R361, R366, R367): counters, the routing decision and its failover holds, the link
layer, and bring-up. -/

namespace Sys2Proof.Machine

/-! ### Ports and counters (R346, FAB_PORT_CFG, FAB_CNT_k_h) -/

def State.portCfg (s : State) (p : Nat) : Word32 := SMap.get portCfgReset s.fabric.portCfg p
def State.setPortCfg (s : State) (p : Nat) (v : Word32) : State :=
  { s with fabric := { s.fabric with portCfg := SMap.put portCfgReset s.fabric.portCfg p v } }
def State.portEn (s : State) (p : Nat) : Bool := (s.portCfg p).getLsbD 31
def State.portSplit (s : State) (p : Nat) : Bool := (s.portCfg p).getLsbD 30
/-- MAX_VER of a FAB_PORT_CFG: 0 and 3 act as 2. -/
def maxVer (cfg : Word32) : Nat := if bits cfg.toNat 28 2 = 1 then 1 else 2
/-- The versions an egress advertises in this training, bit v − 1 for version v (R366, R367). -/
def State.myVersions (s : State) (e : Nat) : Nat := if maxVer (s.half e).cfg = 1 then 1 else 3
def State.dateline (s : State) (e : Nat) : Bool := (s.portCfg (e / 2)).getLsbD (if e % 2 = 0 then 25 else 24)
/-- The port runs as two half-ports: a change of SPLIT takes effect at the next training (R346, FAB_PORT_CFG). -/
def State.splitNow (s : State) (p : Nat) : Bool := (s.half (2 * p + 1)).state ≠ 0
/-- The domain of port p (R388). -/
def portDomain (p : Nat) : Nat := 170 + p

/-- One more event of kind k at egress or ingress e. -/
def State.fabCount (s : State) (e k : Nat) : State :=
  let v := SMap.get 0 s.fabric.counters (16 * e + k)
  { s with fabric := { s.fabric with counters := SMap.put 0 s.fabric.counters (16 * e + k) (satInc v) } }

def State.egressActive (s : State) (e : Nat) : Bool := decide ((s.half e).state = 6)

/-- Receive buffer of a virtual channel and class, in slots (R353). -/
def bufSlots (v width : Nat) : Nat :=
  (match v with
    | 0 => 256
    | 1 => 2048
    | _ => 4096) / (if width = 1 then 2 else 1)

/-! ### Routing (R357, R359–R361) -/

/-- Egresses of an entry that are ACTIVE, in increasing order; an entry that holds no route has none (R359). -/
def State.activeOf (s : State) (e : BitVec 128) : List Nat :=
  if entryOk e then (List.range 64).filter fun i => e.getLsbD i && s.egressActive i else []

/-- The effective primary of an entry (R360). -/
def State.effPrimary (s : State) (e : BitVec 128) : Option Nat :=
  if entryOk e && s.egressActive (entryPrimary e) then some (entryPrimary e) else (s.activeOf e).head?

/-- The virtual channel of a packet type (R355). -/
def vcOf (type : BitVec 4) : Nat :=
  match type.toNat with
  | 0 | 1 => 0
  | 2 | 3 => 1
  | 4 | 5 | 6 => 2
  | _ => 3

/-- SRLEN and the route of a source-routed packet (R355, R360). -/
def srLen (p : Pkt) : Nat := bits p.args.toNat 16 8
def srRoute (p : Pkt) : Nat := bits p.addr.toNat 0 60 + bits p.args.toNat 24 36 * 2 ^ 60

/-- The egress that a source-routed packet names at this hop (R360). -/
def srEgress (p : Pkt) : Nat := bits (srRoute p) (6 * p.hops.toNat) 6

/-- The egress that a packet selects (R360): none while none is ACTIVE. -/
def State.egressOf (s : State) (p : Pkt) : Option Nat :=
  if p.sr then (if s.egressActive (srEgress p) then some (srEgress p) else none)
  else
    let ent := s.routeEntry p.dest.toNat
    if vcOf p.type ≤ 1 then s.effPrimary ent
    else
      let l := s.activeOf ent
      if l = [] then none else l[((p.addr.toNat / 4096) ^^^ p.src.toNat) % l.length]?

def State.hopLimit (s : State) : Nat := max 1 (bits s.fabric.fwd.toNat 0 6)
/-- EGRESS_HOLD in µs. -/
def State.egressHold (s : State) : Nat := min 1000 (max 1 (bits s.fabric.fwd.toNat 16 10))

/-- A packet held by a failover hold: VC1 traffic for the destination (R361). -/
def OutPkt.heldFor (o : OutPkt) (d : Nat) : Bool := decide (vcOf o.pkt.type = 1) && decide (o.pkt.dest.toNat = d)

/-- The primary egress of a destination has changed to n: its VC1 packets are held from now (R361). -/
def State.failover (s : State) (d n : Nat) : State :=
  let until' := s.time + BitVec.ofNat 64 (s.hopLimit * s.egressHold * 100)
  let f := s.fabric
  ({ s with fabric := { f with
      lastPrimary := SMap.put 64 f.lastPrimary d n,
      holds := (f.holds.filter fun (h : Nat × Word) => h.1 ≠ d) ++ [(d, until')],
      outq := updateWhere (fun o => o.heldFor d) (fun o => { o with held := true }) f.outq } }).fabCount n 11

/-- Failover holds begin for the destinations whose effective primary has changed (R361). While no egress of a destination is ACTIVE
it keeps the one that it last had, so a first one, and the same one again, hold nothing (assumption 85). -/
def State.refreshPrimaries (s : State) : State :=
  s.each s.fabric.routes fun s r =>
    match s.effPrimary r.2 with
    | some n =>
      let old := SMap.get 64 s.fabric.lastPrimary r.1
      if old = n then s
      else if old = 64 then { s with fabric := { s.fabric with lastPrimary := SMap.put 64 s.fabric.lastPrimary r.1 n } }
      else s.failover r.1 n
    | none => s

/-- A firmware message along a route of one hop: its code is the firmware's, a free value (R355, R360). -/
def State.askNeighbour (s : State) (e : Nat) : State :=
  let p := s.mkPkt 0 0 0 e ((s.freeBits 16).toNat + 2 ^ 16) []
  s.tookFree.sendPkt (sealPkt { p with sr := true })

/-- In AUTO mode the service cores set out to discover the topology with CTRL packets, one to each neighbour (R363; assumption 87). -/
def State.discover (s : State) : State :=
  if s.fabric.rtHost then s else s.each ((List.range 64).filter s.egressActive) State.askNeighbour

/-! ### Flits out (R348, R350, R352, R353) -/

def State.toWire (s : State) (w : WireOut) : State := { s with fabric := { s.fabric with wire := s.fabric.wire ++ [w] } }

/-- The lanes of an egress: 16, or the 8 of a half-port (R346, R349). -/
def Half.lanes (h : Half) : Nat := if h.width = 2 then 16 else 8

/-- The next codeword of an egress (R348). -/
def State.putWord (s : State) (e kind : Nat) (bytes : List Byte) : State :=
  let h := s.half e
  (s.toWire (.codeword e (wordLanes h.lanes kind h.txWords.toNat bytes))).modHalf e fun h => { h with txWords := h.txWords + 1 }

/-- A flit leaves; where its codeword would be the first of 16,384, an ALIGN codeword goes before it (R348, assumption 84). No fabric
port drives traffic while the device is fenced or without its reference (R41, R460). -/
def State.sendFlit (s : State) (e : Nat) (f : Flit) : State :=
  if ¬ s.clocksRun then s
  else
    let s := if (s.half e).txWords = 0 then s.putWord e 1 alignBytes else s
    s.putWord e 0 (flitBytes f)

/-- An IDLE flit with the acknowledgement as it stands (R350). -/
def State.idleFlit (s : State) (e : Nat) (nak : Bool) (lcm : BitVec 64) : Flit :=
  { seq := 0, ack := (s.half e).rxNext - 1, idle := true, nak := nak, slots := [], credits := [], lcm := lcm }

/-- The next DATA flit, with the credits that are owed (R350, R353). -/
def State.dataFlit (s : State) (e : Nat) (slots : List FlitSlot) : Flit :=
  let h := s.half e
  { seq := h.txSeq, ack := h.rxNext - 1, idle := false, nak := false, slots := slots, credits := h.owed, lcm := 0 }

/-- A DATA flit leaves and is kept until it is acknowledged (R352). -/
def State.sendData (s : State) (e : Nat) (slots : List FlitSlot) : State :=
  let f := s.dataFlit e slots
  if ¬ s.clocksRun then s
  else (s.sendFlit e f).modHalf e fun h =>
    { h with txSeq := h.txSeq + 1, unacked := h.unacked ++ [{ flit := f, resent := 0 }], owed := [], rxSinceAck := 0 }

/-- An acknowledgement leaves: with the credits that are owed in a DATA flit of idle slots while the replay buffer has room, otherwise
in an IDLE flit (R350, R352, R353). -/
def State.sendAck (s : State) (e : Nat) : State :=
  if ¬ s.clocksRun then s
  else if (s.half e).owed ≠ [] ∧ (s.half e).unacked.length < 2048 then s.sendData e []
  else (s.sendFlit e (s.idleFlit e false 0)).modHalf e fun h => { h with rxSinceAck := 0 }

/-- A NAK leaves (R352). -/
def State.sendNak (s : State) (e : Nat) : State := s.sendFlit e (s.idleFlit e true 0)

/-! ### Bring-up (R349, R366, R367) -/

def State.marginAt (s : State) (p : Nat) : Margin := SMap.get Margin.reset s.fabric.margins p
def State.modMargin (s : State) (p : Nat) (f : Margin → Margin) : State :=
  { s with fabric := { s.fabric with margins := SMap.put Margin.reset s.fabric.margins p (f (s.marginAt p)) } }

/-- The egress whose lane a port's sweep measures. -/
def State.marginHalf (s : State) (p : Nat) (lane : Nat) : Nat := 2 * p + b2n (s.splitNow p && decide (lane ≥ 8))

/-- A margin sweep on a link ends because the link leaves ACTIVE; the lane's last known-good settings are in force again (R370). -/
def State.marginLinkDown (s : State) (e : Nat) : State :=
  let p := e / 2
  let m := s.marginAt p
  if m.state = 1 ∧ s.marginHalf p m.runLane.toNat = e then
    let s := s.modMargin p fun m => { m with state := 3, reason := 1 }
    let good := SMap.get (.preset 0) (s.half e).eqGood m.runLane.toNat
    s.modHalf e fun h => { h with eq := SMap.put (.preset 0) h.eq m.runLane.toNat good }
  else s

/-- The grants that a fabric ingress port owns (R303, R309). -/
def reqOfPort (p : Nat) (r : ArbReq) : Bool :=
  (decide (r.cls = 4) || decide (r.cls = 6) || decide (r.cls = 7)) && decide (r.input = 16 + p)

/-- DETAIL of LINK_DOWN, CREDIT_STALL and DUPLICATE_ID (R462). -/
def State.linkDetail (s : State) (e : Nat) : Nat :=
  detail [(32, e), (33, (s.half e).state.toNat), (34, (s.half e).peerDev.toNat)]

/-- The packets that an ingress had begun to take are cut short, and those it had taken owe it no credits any more (R310, R365). -/
def State.cutIngress (s : State) (e : Nat) : State :=
  let f := s.fabric
  let left := (s.half e).rxProg.filterMap fun r =>
    (readPacket r.2 true).map fun p => ({ ingress := e, slots := 0, pkt := p } : RxPkt)
  { s with fabric := { f with
      rxPkts := updateWhere (fun r => decide (r.ingress = e)) (fun r => { r with slots := 0 }) f.rxPkts ++ left } }

/-- A link leaves ACTIVE (R365, R370): its replay buffer is emptied, packets in progress are cut, the routes may change, and the
service cores discover anew (R363). -/
def State.linkLeaves (s : State) (e : Nat) (dest : BitVec 4) (pause : Bool) : State :=
  let was := s.egressActive e
  let s := if was then ((s.alarm 0x0504 3 e (s.linkDetail e)).marginLinkDown e).cutIngress e else s
  let s := s.modHalf e fun h =>
    { Half.reset with state := dest, pausing := pause, version := if dest = 0 then 0 else h.version, cfg := h.cfg
                      txWords := h.txWords, eq := h.eq, eqGood := h.eqGood }
  if was then (s.abandon (reqOfPort (e / 2))).refreshPrimaries.discover else s

/-- A retraining: the link returns to DETECT after the pause (R366). -/
def State.retrain (s : State) (e : Nat) : State :=
  if (s.half e).state = 0 then s else (s.fabCount e 4).linkLeaves e 1 true

/-- A link enters ACTIVE: no credits are held, and its first DATA flit returns the whole receive buffer to the peer (R353). -/
def State.enterActive (s : State) (e : Nat) : State :=
  let owed (w : Nat) : SMap Nat := (List.range 8).foldl (fun m i => SMap.put 0 m i (bufSlots (i / 2) w)) []
  ((s.modHalf e fun h =>
    { h with state := 6, txSeq := 0, unacked := [], rxNext := 0, rxSinceAck := 0, nakWait := false, credits := [],
             owed := owed h.width.toNat, rxProg := [], eqGood := h.eq }).sendAck e).refreshPrimaries.discover

/-- What a link does once HELLO is complete: DUPLICATE, ISOLATED or ACTIVE (R358, R366). -/
def State.helloDone (s : State) (e : Nat) : State :=
  let h := s.half e
  if s.fabric.devValid && h.peerValid then
    if h.peerDev = s.fabric.devId then
      let s := s.modHalf e fun h => { h with state := 8 }
      s.alarm 0x0506 3 e (s.linkDetail e)
    else s.enterActive e
  else s.modHalf e fun h => { h with state := 7 }

/-- The HELLO of an egress (R366). -/
def State.helloMsg (s : State) (e : Nat) : BitVec 64 :=
  BitVec.ofNat 64 (s.myVersions e + (e / 2 + e % 2 * 32) * 256 + s.fabric.devId.toNat * 2 ^ 16 +
    b2n s.fabric.devValid * 2 ^ 31 + 2 ^ 32)

/-- A HELLO leaves in an IDLE flit (R366). -/
def State.sendHello (s : State) (e : Nat) : State :=
  (s.sendFlit e (s.idleFlit e false (s.helloMsg e))).modHalf e fun h => { h with helloSent := true }

/-- A HELLO of the peer: it completes the state HELLO, or shows a version mismatch; while the link is ISOLATED it may bring the id that
was missing, and while it is DUPLICATE another id, which retrains the link (R366, R367; assumption 86). -/
def State.takeHello (s : State) (e : Nat) (hello : BitVec 64) : State :=
  let m := hello.toNat
  let st := (s.half e).state
  if st ≠ 5 ∧ st ≠ 7 ∧ st ≠ 8 then s
  else if bits m 0 2 &&& s.myVersions e = 0 then s.linkLeaves e 1 false
  else
    let other := decide ((s.half e).peerDev ≠ BitVec.ofNat 15 (bits m 16 15)) || !m.testBit 31
    let s := s.modHalf e fun h =>
      { h with helloGot := some hello, peerEgress := BitVec.ofNat 6 (2 * bits m 8 5 + bits m 13 1),
               peerDev := BitVec.ofNat 15 (bits m 16 15), peerValid := m.testBit 31,
               peerTn6 := decide (bits m 32 8 = 0) }
    if st = 8 then (if other then s.retrain e else s) else s.helloDone e

/-- AN begins: the port's abilities go out with the auto-negotiation pages, under the FAB_PORT_CFG that this training uses (R347,
R366, R367). -/
def State.beginAn (s : State) (e : Nat) : State :=
  let cfg := s.portCfg (e / 2)
  let s := s.modHalf e fun h => { h with state := 2, cfg := cfg }
  if s.clocksRun then s.toWire (.an e (decide (maxVer cfg = 2)) (cfg.getLsbD 30) (BitVec.ofNat 2 (s.myVersions e))) else s

/-- LINK_SIGNAL_DETECT: DETECT finds the peer's signal and goes on to AN. Training begins here, so SPLIT, MAX_VER and PMD take effect:
the upper half-port of a port that is now split starts at DETECT, and that of one that is now whole goes DOWN (R346). -/
def execLinkSignalDetect (e : Nat) (s : State) : Res :=
  let h := s.half e
  let p := e / 2
  if h.state ≠ 1 ∨ h.pausing then .next s
  else if e % 2 = 1 ∧ ¬ s.portSplit p then .next (s.linkLeaves e 0 false)
  else
    let s := s.beginAn e
    .next (
      if e % 2 = 1 ∨ s.portSplit p = s.splitNow p then s
      else if s.portSplit p then s.modHalf (e + 1) fun _ => { Half.reset with state := 1 }
      else s.linkLeaves (e + 1) 0 false)

/-- AUTONEG_DONE: rate and version are chosen (R367). -/
def execAutonegDone (e : Nat) (peer200 : Bool) (peerVers : BitVec 2) (s : State) : Res :=
  let rate := peer200 && decide (maxVer (s.half e).cfg = 2)
  let v2 := rate && peerVers.getLsbD 1
  .next (if (s.half e).state = 2 then
    s.modHalf e fun h => { h with state := 3, rate200 := rate, version := if v2 then 2 else 1 }
    else s)

/-- The equaliser settings at which the training of a lane arrives: a free value (R347). -/
def State.trainLane (s : State) (e lane : Nat) : State :=
  (s.modHalf e fun h => { h with eq := SMap.put (.preset 0) h.eq lane (.trained (s.freeBits 32)) }).tookFree

/-- The lanes of an egress of 16 or 8 lanes: the lower or the upper half of its port's, of a whole port that fell back the half that
is whole (R346, R349). -/
def usedLanes (e : Nat) (whole : Bool) (low : Bool) (width : BitVec 2) : List Nat :=
  if width = 2 then List.range 16
  else if width = 0 then []
  else if (if whole then low else decide (e % 2 = 0)) then List.range 8
  else (List.range 8).map (8 + ·)

/-- LINK_TRAIN_DONE: the lanes that training found usable (R349). -/
def execLinkTrainDone (e : Nat) (lanes : BitVec 16) (s : State) : Res :=
  let whole := !s.splitNow (e / 2)
  let low := decide (bits lanes.toNat 0 8 = 255)
  let high := decide (bits lanes.toNat 8 8 = 255)
  let width : BitVec 2 :=
    if whole then (if low && high then 2 else if low || high then 1 else 0)
    else if e % 2 = 0 then (if low then 1 else 0)
    else if high then 1 else 0
  .next (if (s.half e).state = 3 then
    (s.modHalf e fun h =>
      if width = 0 then { h with state := 1, width := 0 } else { h with state := 4, width := width }).each
      (usedLanes e whole low width) fun s l => s.trainLane e l
    else s)

/-- LINK_ALIGN_DONE: HELLO begins, and the port sends its message. -/
def execLinkAlignDone (e : Nat) (s : State) : Res :=
  .next (if (s.half e).state = 4 then (s.modHalf e fun h => { h with state := 5 }).sendHello e else s)

/-- HELLO_RECEIVE: the peer's HELLO completes the state, or a version mismatch returns the port to DETECT (R366, R367). -/
def execHelloReceive (e : Nat) (hello : BitVec 64) (s : State) : Res := .next (s.takeHello e hello)

/-- LINK_STATE_TIMEOUT: a bring-up state exceeds its bound (R364, R366). -/
def execLinkStateTimeout (e : Nat) (s : State) : Res :=
  let st := (s.half e).state
  .next (if 2 ≤ st ∧ st ≤ 5 then s.linkLeaves e 1 true else s)

/-- RETRAIN_PAUSE_END: the 100 ms pause before DETECT is over. -/
def execRetrainPauseEnd (e : Nat) (s : State) : Res := .next (s.modHalf e fun h => { h with pausing := false })

/-- LINK_DOWN: a link leaves ACTIVE (R365). -/
def execLinkDown (e : Nat) (s : State) : Res := .next (if s.egressActive e then s.linkLeaves e 1 true else s)

/-- What a write of FAB_PORT_CFG does (R366, R389). -/
def State.writePortCfg (s : State) (p : Nat) (v : Word32) : State :=
  let was := s.portEn p
  let en := v.getLsbD 31
  let s := s.setPortCfg p (v &&& 0xFF000000#32)
  let d := portDomain p
  let s := s.setDomReq d (!en)
  let s :=
    if was && !en then
      let s := (s.linkLeaves (2 * p) 0 false).linkLeaves (2 * p + 1) 0 false
      { s with power := { s.power with domOff := if s.power.domOff.contains d then s.power.domOff else s.power.domOff ++ [d]
                                       domPending := s.power.domPending.filter fun e => e ≠ d } }
    else if !was && en then
      if s.domainOn d then
        let s := s.modHalf (2 * p) fun _ => { Half.reset with state := 1 }
        if s.portSplit p then s.modHalf (2 * p + 1) fun _ => { Half.reset with state := 1 } else s
      else if s.domBlocked d then s.refuseDomain d
      else s.switchOn d
    else s
  if v.getLsbD 23 then (s.retrain (2 * p)).retrain (2 * p + 1) else s

/-- FAB_PORT_ENABLE: a write of FAB_PORT_CFG. -/
def execFabPortEnable (p : Nat) (v : Word32) (s : State) : Res := .next (s.writePortCfg p v)
/-- FAB_PORT_RETRAIN: a write of FAB_PORT_CFG with RETRAIN. -/
def execFabPortRetrain (p : Nat) (v : Word32) (s : State) : Res := .next (s.writePortCfg p (v ||| 0x00800000))

/-! ### Flits in (R350–R353) -/

/-- A is at or before B, modulo 2^16. -/
def seqLe (a b : BitVec 16) : Bool := decide ((b - a).toNat < 32768)

/-- An acknowledgement (R352). -/
def Half.ackTo (h : Half) (ack : BitVec 16) : Half := { h with unacked := h.unacked.filter fun f => !seqLe f.flit.seq ack }

/-- Resend from the oldest unacknowledged flit, in order; when one flit has been resent 8 times the link retrains (R352). -/
def State.resend (s : State) (e : Nat) : State :=
  match (s.half e).unacked with
  | [] => s
  | f :: r =>
    if ¬ s.clocksRun then s
    else
      let s := (s.fabCount e 3).each (f :: r) fun s f => s.sendFlit e f.flit
      let s := s.modHalf e fun h => { h with unacked := h.unacked.map fun f => { f with resent := f.resent + 1 } }
      if f.resent + 1 ≥ 8 then s.retrain e else s

/-- A flit that is discarded while its number is awaited: one NAK (R352). -/
def State.nakOnce (s : State) (e : Nat) : State :=
  if (s.half e).nakWait then s else (s.sendNak e).modHalf e fun h => { h with nakWait := true }

/-- The credit returns of a flit (R350). -/
def addCredits (f : Flit) (m : SMap Nat) : SMap Nat :=
  (List.range 8).foldl (fun m i => SMap.put 0 m i (SMap.get 0 m i + SMap.get 0 f.credits i)) m

/-- The acknowledgement of a flit, and the replay that it requests (R352). -/
def State.takeAck (s : State) (e : Nat) (f : Flit) : State :=
  let s := s.modHalf e fun h => h.ackTo f.ack
  if f.nak then s.resend e else s

/-- The packets that ended in a flit wait for the transport layer; the ingress of a version-1 link makes their checks (R343, R351). -/
def State.takePackets (s : State) (e : Nat) (l : List (List FlitSlot × Bool)) : State :=
  let v1 := decide ((s.half e).version = 1)
  let got := l.filterMap fun q => (readPacket q.1 q.2).map fun p =>
    ({ ingress := e, slots := q.1.length + b2n q.2, pkt := if v1 then sealPkt p else p } : RxPkt)
  { s with fabric := { s.fabric with rxPkts := s.fabric.rxPkts ++ got } }

/-- A flit whose codeword is good, on an ACTIVE link: an IDLE flit brings an acknowledgement; a DATA flit with the awaited number is
accepted with its credits and slots, any other is discarded whole (R351, R352). -/
def State.takeFlit (s : State) (e : Nat) (bytes : List Byte) : State :=
  let f := readFlit bytes
  let h := s.half e
  if ¬ flitCrcOk bytes then (s.fabCount e 2).nakOnce e
  else if f.idle then s.takeAck e f
  else match slotWalk f.slots h.rxProg with
    | none => (s.fabCount e 2).nakOnce e
    | some (prog, done) =>
      if f.seq ≠ h.rxNext then s.nakOnce e
      else
        let s := s.takeAck e f
        if ¬ s.egressActive e then s
        else
          let s := (s.modHalf e fun h =>
            { h with rxNext := h.rxNext + 1, rxSinceAck := h.rxSinceAck + 1, nakWait := false,
                     credits := addCredits f h.credits, rxProg := prog }).takePackets e done
          if (s.half e).rxSinceAck ≥ 64 then s.sendAck e else s

/-- FLIT_RECEIVE: a codeword arrives on the lanes of a port; the FEC corrects it or flags it, and the link layer takes its flit (R347,
R348, R350–R353). In HELLO, ISOLATED and DUPLICATE the IDLE flits bring the peer's HELLO (R366). An ALIGN codeword carries no flit. -/
def execFlitReceive (e : Nat) (lanes : List (List (BitVec 10))) (s : State) : Res :=
  let h := s.half e
  let up := decide (h.state = 6)
  if ¬ up ∧ h.state ≠ 5 ∧ h.state ≠ 7 ∧ h.state ≠ 8 then .next s
  else match readWord h.lanes lanes with
    | .bad =>
      let s := s.fabCount e 1
      .next (if up then s.nakOnce e else s)
    | .word fixed kind bytes =>
      let s := if fixed then s.fabCount e 0 else s
      .next (
        if kind ≠ 0 then s
        else if up then s.takeFlit e bytes
        else if flitCrcOk bytes ∧ (readFlit bytes).idle ∧ (readFlit bytes).lcm ≠ 0 then s.takeHello e (readFlit bytes).lcm
        else s)

/-- ACK_TIMER: an ACK leaves at least every 1 µs while flits arrive, and credits that are owed return (R352, R353). -/
def execAckTimer (e : Nat) (s : State) : Res :=
  .next (if s.egressActive e && (decide ((s.half e).rxSinceAck > 0) || decide ((s.half e).owed ≠ [])) then s.sendAck e else s)

/-- NAK_REPEAT: the NAK is repeated every 2 µs while the receiver waits (R352). -/
def execNakRepeat (e : Nat) (s : State) : Res :=
  .next (if s.egressActive e && (s.half e).nakWait then s.sendNak e else s)

/-- REPLAY_TIMEOUT: ACK has not advanced for 16 µs (R352, R364). -/
def execReplayTimeout (e : Nat) (s : State) : Res := .next (if s.egressActive e then s.resend e else s)

/-- A packet waits on a virtual channel and class of an egress. -/
def State.waitsOn (s : State) (e v : Nat) (cls : Bool) : Bool :=
  s.fabric.outq.any fun o =>
    decide (s.egressOf o.pkt = some e) && decide (vcOf o.pkt.type = v) && decide ((o.pkt.cls || s.dateline e) = cls)

/-- CREDIT_STALL: a packet has waited 1 ms on a virtual channel and class with zero credits (R364). -/
def execCreditStall (e : Nat) (vc : BitVec 2) (cls : Bool) (s : State) : Res :=
  let k := 2 * vc.toNat + b2n cls
  .next (if s.egressActive e && decide (SMap.get 0 (s.half e).credits k = 0) && s.waitsOn e vc.toNat cls then
    ((s.fabCount e 10).alarm 0x0505 3 e (s.linkDetail e)).retrain e
    else s)

end Sys2Proof.Machine
end

