-- ==== Sys2Proof/Machine/Fabric.lean ====
section
/-! DEFINITION. The transport layer of the Usmal fabric (R354–R365, R368–R370): packets at an ingress, at their destination and at an
egress, timeouts, discovery, the FAB registers' commands and the margin sweep. -/

namespace Sys2Proof.Machine

/-! ### Delivery (R343–R345, R355, R356, R364, R365) -/

/-- Granule j of a packet carries poison. -/
def granPoison (p : Pkt) (j : Nat) : Bool := p.slotPoison.getLsbD j || p.pmask.getLsbD j

/-- Send a response to a memory request (R355): its type, status, data and the poison of its granules. -/
def State.respond (s : State) (p : Pkt) (type : BitVec 4) (status : Nat) (data : List Byte) (pmask : BitVec 8) : State :=
  s.sendPkt (s.mkPkt type p.src p.txid p.addr.toNat status data pmask)

/-- The granules of a memory request: local numbers. -/
def pktGrans (p : Pkt) : List Nat :=
  let n := if p.type = 4 then min 8 (max 1 (bits p.args.toNat 0 4)) else p.len.toNat
  (List.range n).map fun j => p.addr.toNat % 2 ^ 41 / 64 + j

/-- Read the granules of an RD in package memory. A granule whose stored check does not match its data travels with the check that it
has, which a hop or the reader then finds (R343); which wrong value it is the model does not hold (assumption 83). -/
def State.serveRead (s : State) (p : Pkt) : State :=
  let r := (pktGrans p).foldl (fun (acc : State × List Byte × List GranErr) g =>
    let r := acc.1.granRead g
    (r.1, acc.2.1 ++ r.2.1, acc.2.2 ++ [r.2.2])) (s, [], [])
  let poison := (numbered 0 r.2.2).foldl (fun n e => if e.2 = .poisoned then n + 2 ^ e.1 else n) 0
  let q := r.1.mkPkt 8 p.src p.txid p.addr.toNat 0 r.2.1 (BitVec.ofNat 8 poison)
  let carried := (q.checks.zip r.2.2).map fun e => if e.2 = .mismatch then e.1 ^^^ 1#32 else e.1
  r.1.sendPkt { q with checks := carried }

/-- The bytes that a WR writes in its granule j (R355). -/
def wrBytes (p : Pkt) (j : Nat) : List (Nat × Byte) :=
  let start := if j = 0 then bits p.args.toNat 0 6 else 0
  let stop := if j + 1 = p.len.toNat then bits p.args.toNat 8 6 else 63
  ((List.range 64).filter fun i => decide (start ≤ i) && decide (i ≤ stop)).map fun i => (i, p.data.getD (64 * j + i) 0)

/-- The response to a memory request that reached this device cut short: it has failed with a code that the manual does not give, a free
value among those of R323 (R310, R355; assumption 34). -/
def State.respondCut (s : State) (p : Pkt) (type : BitVec 4) : State :=
  s.tookFree.respond p type (1 + Config.freeValue s.free % 5) [] 0

/-- Write the granules of a WR in package memory; of one that was cut, those that came whole (R310). -/
def State.serveWrite (s : State) (p : Pkt) : State :=
  let n := p.cut.getD p.len.toNat
  let r := (numbered 0 (pktGrans p)).foldl (fun (acc : State × Bool) g =>
    if g.1 < n then
      let r := acc.1.granWrite g.2 (wrBytes p g.1) (granPoison p g.1)
      (r.1, acc.2 || r.2)
    else acc) (s, false)
  if p.cut.isSome then r.1.respondCut p 9 else r.1.respond p 9 (if r.2 then 4 else 0) [] 0

/-- Perform an AMO in package memory (R335, R356). -/
def State.serveAmo (s : State) (p : Pkt) : State :=
  if p.cut.isSome then s.respondCut p 0xA
  else if granPoison p 0 then s.respond p 0xA 4 [] 0
  else
    match s.granAtomic (p.addr.toNat % 2 ^ 41) (bits p.args.toNat 0 3) (BitVec.ofNat 64 (fieldAt p.data 0 8))
        (BitVec.ofNat 64 (fieldAt p.data 8 8)) with
    | (s, some old) => s.respond p 0xA 0 (leBytes 8 old.toNat ++ List.replicate 56 0) 0
    | (s, none) => s.respond p 0xA 4 [] 0

/-- A request that this device keeps for a while: for a stack that is being woken (kind 0), or for host memory (kind 4). -/
def State.keepReq (s : State) (p : Pkt) (kind : BitVec 4) : State :=
  let r : MemReq :=
    { txid := s.memory.nextTx, dev := none, tile := 0, ctx := false, slot := 0, kind := kind, gran := p.addr.toNat / 64,
      batch := 0, origin := some p, issued := s.time }
  { s with memory := { s.memory with nextTx := s.memory.nextTx + 1, reqs := s.memory.reqs ++ [r] } }

def State.respType (p : Pkt) : BitVec 4 := match p.type.toNat with
  | 4 => 8
  | 5 => 9
  | _ => 0xA

/-- A memory request from another device (R314, R335, R355, R364, R365, R390). -/
def State.serveMem (s : State) (p : Pkt) : State :=
  let a := p.addr.toNat % 2 ^ 41
  let gs := pktGrans p
  let fail (code : Nat) : State := s.respond p (State.respType p) code [] 0
  if s.memory.intlvBusy ∨ s.chip.warmBusy then fail 5
  else match s.locKind a with
    | .none => fail 1
    | .host =>
      match p.type.toNat with
      | 4 =>
        let s := s.keepReq p 4
        s.emit (.read (s.memory.nextTx - 1) (a - hostWinBase) (64 * gs.length))
      | 5 =>
        let w := (numbered 0 gs).flatMap fun g => if g.1 < p.cut.getD p.len.toNat then (wrBytes p g.1).map (·.2) else []
        let s := s.emit (.write (a - hostWinBase + bits p.args.toNat 0 6) w (p.slotPoison ≠ 0 || p.pmask ≠ 0))
        if p.cut.isSome then s.respondCut p 9 else s.respond p 9 0 [] 0
      | _ => fail 1
    | .package =>
      if gs.any fun g => s.stackReady (s.place (64 * g)).stack = .refused then fail 5
      else
        let asleep := gs.filter fun g => s.stackReady (s.place (64 * g)).stack = .waking
        if asleep ≠ [] then (s.each asleep fun s g => s.switchOn (hbmDomain (s.place (64 * g)).stack)).keepReq p 0
        else match p.type.toNat with
          | 4 => s.serveRead p
          | 5 => s.serveWrite p
          | _ => s.serveAmo p

/-- The requests that waited for a stack are served once it is there (R390). -/
def State.serveParked (s : State) : State :=
  s.each (s.memory.reqs.filter fun r => r.kind = 0) fun s r =>
    match r.origin with
    | some p => ({ s with memory := { s.memory with reqs := eraseFirst (fun q => q = r) s.memory.reqs } }).serveMem p
    | none => s

/-- A response finds its request by TXID, or is discarded (R365). -/
def State.takeResponse (s : State) (p : Pkt) : State :=
  match s.memory.reqs.find? fun r => decide (r.txid = p.txid) && decide (r.dev = some p.src) with
  | some r =>
    let st := bits p.args.toNat 0 8
    let code : BitVec 4 := if st ≠ 0 then BitVec.ofNat 4 st else if granPoison p 0 then 4 else 0
    let off := if r.kind = 6 then p.addr.toNat % 64 else 0
    let data := if r.kind = 5 then none else some (List.replicate off 0 ++ p.data)
    s.streamAnswer r data code
  | none =>
    if s.copyAwaits p.txid (fun d => d = some p.src) then
      let st := bits p.args.toNat 0 8
      s.copyAnswer p.txid (some p.data) (if st ≠ 0 then BitVec.ofNat 4 st else if granPoison p 0 then 4 else 0)
    else s.lateResponse

/-- The POSTACK of a message finds the record that its TXID names (R295, R355). -/
def State.takePostack (s : State) (p : Pkt) : State :=
  match s.fabric.postOut.find? fun r => r.txid = p.txid with
  | some r =>
    let reason := bits p.args.toNat 0 8
    let a : PostAck :=
      { src := r.src, srcCtx := r.srcCtx, seq := r.seq, reason := if reason = 0 then none else some (BitVec.ofNat 3 reason) }
    { s with post := { s.post with acks := s.post.acks ++ [a] } }
  | none => s.lateResponse

/-- A message from an ingress goes on to its tile through the chip stage; one for a tile that the grade has not is answered with BADDEST,
and one whose header did not come is no message (R290, R295, R310). -/
def State.takePost (s : State) (e : Nat) (p : Pkt) : State :=
  let m := postOfPkt p
  if p.cut = some 0 then s
  else if s.validTile m.dest then s.pushMsg m (some p.txid) (ingressPath e m.dest)
  else if p.cut.isSome then s
  else s.answerPost m p.txid (some 4)

/-- A CTRL packet at its destination: the management processor holds its message, which is its firmware's, and no request to that peer
waits any more (R355, R364). -/
def State.takeCtrl (s : State) (p : Pkt) : State :=
  { s with fabric := { s.fabric with ctrlIn := s.fabric.ctrlIn ++ [p]
                                     ctrlReqs := s.fabric.ctrlReqs.filter fun r => r.1 ≠ p.src } }

/-- A packet at its destination device (R355): to the memory controllers, the post plane, or the management processor. The
sync network takes a SYNC packet by the XSYNC events. -/
def State.deliver (s : State) (e : Nat) (p : Pkt) : State :=
  match p.type.toNat with
  | 0 => s.takeCtrl p
  | 2 => s.takePost e p
  | 3 => s.takePostack p
  | 4 | 5 | 6 => s.serveMem p
  | 8 | 9 | 10 => s.takeResponse p
  | _ => s

/-! ### At an ingress (R355, R356, R362) -/

/-- TYPE and LEN are among those of R355. -/
def typeOk (p : Pkt) : Bool :=
  let n := p.len.toNat
  match p.type.toNat with
  | 0 => decide (n ≤ 8)
  | 1 | 3 | 4 | 9 => decide (n = 0)
  | 2 => decide (1 ≤ n) && decide (n ≤ 5)
  | 5 => decide (1 ≤ n) && decide (n ≤ 8)
  | 6 => decide (n = 1)
  | 8 => decide (n ≤ 8)
  | 10 => decide (n ≤ 1)
  | _ => false

/-- The memory packets, whose failed granules are named by address (R356). -/
def memType (p : Pkt) : Bool := decide (vcOf p.type ≥ 2)

/-- Verify the granules of a packet that came: one that fails and is not poisoned is recorded, and travels on with its slot's POISON bit
set (R356). -/
def State.checkGrans (s : State) (e : Nat) (p : Pkt) : State × Pkt :=
  (numbered 0 (granules (min p.len.toNat (p.cut.getD 8)) p.data)).foldl (fun (acc : State × Pkt) g =>
    let j := g.1
    if granPoison p j ∨ p.checks[j]? = some (crc32c g.2) then acc
    else
      let addr := if memType p then p.addr.toNat + 64 * j else 0
      let det := if memType p then checkDetail addr 1 e 0 0 0 else checkDetail 0 1 e p.src.toNat p.txid.toNat j
      (((acc.1.fabCount e 6).alarm 0x0501 3 e det false 0 9), { acc.2 with slotPoison := acc.2.slotPoison ||| (1#8 <<< j) }))
    (s, p)

/-- The packet has reached the device that takes it (R357, R360). -/
def State.arrived (s : State) (p : Pkt) : Bool :=
  if p.sr then decide (p.hops.toNat = srLen p) else s.fabric.devValid && decide (p.dest = s.fabric.devId)

/-- A SYNC packet of a KIND the manual has, for an enabled group of this device (R374). -/
def State.syncTaken (s : State) (p : Pkt) : Bool :=
  decide (bits p.args.toNat 0 3 ≤ 4) &&
    allZones.any fun z => (s.xgroup z).enabled && decide ((s.xgroup z).gid = bits p.args.toNat 8 16)

/-- The slots of a packet are free: their credits are owed to the peer (R353). -/
def State.freeSlots (s : State) (r : RxPkt) : State :=
  let k := 2 * vcOf r.pkt.type + b2n r.pkt.cls
  s.modHalf r.ingress fun h => { h with owed := SMap.put 0 h.owed k (SMap.get 0 h.owed k + r.slots) }

/-- TYPE and LEN are legal, and a packet that was not cut has as many granules as LEN says (R355; assumption 86). -/
def pktOk (p : Pkt) : Bool := typeOk p && (p.cut.isSome || decide (p.data.length = 64 * p.len.toNat))

/-- TRANSPORT_PACKET_INGRESS: the packet that has waited longest at an ingress is checked, and delivered or forwarded (R343, R355,
R356, R362). -/
def execTransportPacketIngress (e : Nat) (s : State) : Res :=
  match s.fabric.rxPkts.find? fun r => decide (r.ingress = e) with
  | none => .next s
  | some r =>
    let s := { s with fabric := { s.fabric with rxPkts := eraseFirst (fun q => q = r) s.fabric.rxPkts } }.freeSlots r
    if r.pkt.hcrc ≠ hcrcOf r.pkt then .next (s.fabCount e 5)
    else if ¬ pktOk r.pkt then .next (s.fabCount e 9)
    else
      let c := s.checkGrans e r.pkt
      let s := c.1
      let p := c.2
      if s.arrived p then .next (if p.type = 1 ∧ ¬ s.syncTaken p then s.fabCount e 9 else s.deliver e p)
      else if p.hops.toNat ≥ s.hopLimit then .next (s.fabCount e 7)
      else if p.sr ∧ s.egressOf p = none then .next (s.fabCount e 9)
      else if p.type = 2 ∧ ¬ p.sr ∧ ¬ entryOk (s.routeEntry p.dest.toNat) then
        .next (if p.cut.isSome then s else s.sendPkt (s.mkPkt 3 p.src p.txid 0 4 []))
      else .next (s.sendPkt p (some e))

/-! ### At the egress stage (R353, R360–R362, R364, R368) -/

/-- POSTACK reasons that version 1 lacks (R368). -/
def legacyReason (p : Pkt) : Pkt :=
  if p.type = 3 ∧ (bits p.args.toNat 0 8 = 2 ∨ bits p.args.toNat 0 8 = 3) then { p with args := 1 } else p

/-- Version 1 can carry the packet (R368). -/
def v1Carries (p : Pkt) : Bool :=
  match p.type.toNat with
  | 2 => decide (bits (fieldAt p.data 0 4) 28 4 ≤ 4)
  | 6 => decide (bits p.args.toNat 0 3 ≤ 4)
  | _ => true

/-- A failover hold is in force for the packet (R361). -/
def State.isHeld (s : State) (o : OutPkt) : Bool := o.held || s.fabric.holds.any fun h => o.heldFor h.1

/-- Drop entry i of the egress stage. -/
def State.dropOut (s : State) (i : Nat) : State := { s with fabric := { s.fabric with outq := s.fabric.outq.eraseIdx i } }

/-- The packet as it leaves by an egress: one hop more, CLASS 1 behind a dateline (R354, R362). -/
def State.outgoing (s : State) (e : Nat) (p : Pkt) : Pkt :=
  { p with hops := p.hops + 1, cls := p.cls || s.dateline e }

/-- Virtual channel and class of a packet at an egress, as 2v + c. -/
def State.outKey (s : State) (e : Nat) (o : OutPkt) : Nat := 2 * vcOf o.pkt.type + b2n (o.pkt.cls || s.dateline e)

/-- The packet of a virtual channel and class that may leave by an egress: the one that has waited longest, when the sender holds its
credits and the replay buffer has room (R352, R353, R365). -/
def State.readyOut (s : State) (e k : Nat) : Option Nat :=
  match (numbered 0 s.fabric.outq).find? fun o =>
      !s.isHeld o.2 && decide (s.egressOf o.2.pkt = some e) && decide (s.outKey e o.2 = k) with
  | some o =>
    if SMap.get 0 (s.half e).credits k < o.2.pkt.len.toNat + 1 ∨ (s.half e).unacked.length ≥ 2048 then none else some o.1
  | none => none

/-- The virtual channel and class that takes the next slot of the wire: VC0 first; then the largest ratio of held credits to buffer
size, at equal ratios the lower channel (R353). -/
def State.nextKey (s : State) (e : Nat) : Option Nat :=
  let h := s.half e
  let ready := (List.range 8).filter fun k => (s.readyOut e k).isSome
  let ratio (k : Nat) : Nat × Nat := (SMap.get 0 h.credits k, bufSlots (k / 2) h.width.toNat)
  match ready with
  | [] => none
  | k :: r =>
    if k < 2 then some k
    else some (r.foldl (fun best j => if (ratio j).1 * (ratio best).2 > (ratio best).1 * (ratio j).2 then j else best) k)

/-- A packet leaves in a DATA flit of its own: it consumes its credits as its slots are sent, and one that was cut releases those it
does not send (R350–R353; assumption 85). -/
def State.launch (s : State) (e i : Nat) (p : Pkt) : State :=
  let v := vcOf p.type
  let slots := packetSlots v (decide ((s.half e).version = 1)) p
  let k := 2 * v + b2n p.cls
  ((s.dropOut i).modHalf e fun h => { h with credits := SMap.put 0 h.credits k (SMap.get 0 h.credits k - slots.length) }).sendData
    e slots

/-- PACKET_EGRESS: the i-th packet waiting at the egress stage leaves by the egress it selects, when it is the next of that egress
(R352, R353, R360–R362, R368). -/
def execPacketEgress (i : Nat) (s : State) : Res :=
  if ¬ s.clocksRun then .next s
  else match s.fabric.outq[i]? with
    | none => .next s
    | some o =>
      match (if s.isHeld o then none else s.egressOf o.pkt) with
      | none =>
        .next (if o.pkt.sr && (s.egressOf o.pkt).isNone then (s.dropOut i).fabCount (srEgress o.pkt) 9 else s)
      | some e =>
        let v1 := decide ((s.half e).version = 1)
        let p := s.outgoing e o.pkt
        let p := if v1 then legacyReason p else p
        if v1 && !v1Carries p then .next ((s.dropOut i).fabCount e 9)
        else if s.nextKey e = some (s.outKey e o) ∧ s.readyOut e (s.outKey e o) = some i then
          let r := if v1 then s.checkGrans e p else (s, p)
          .next (r.1.launch e i r.2)
        else .next s

/-- EGRESS_HOLD_EXPIRY: a packet that has waited the egress hold is discarded; held packets are exempt (R361, R364). The
count falls on its ingress, or, for one made here, on the primary of its entry. -/
def execEgressHoldExpiry (i : Nat) (s : State) : Res :=
  match s.fabric.outq[i]? with
  | some o =>
    if s.isHeld o then .next s
    else
      let at' := (s.egressOf o.pkt <|> o.ingress).getD (entryPrimary (s.routeEntry o.pkt.dest.toNat))
      .next ((s.dropOut i).fabCount at' 8)
  | none => .next s

/-- FAILOVER_HOLD_END: the held packets of a destination may leave on the new path in their order (R361). -/
def execFailoverHoldEnd (dest : Nat) (s : State) : Res :=
  .next { s with fabric := { s.fabric with
    holds := s.fabric.holds.filter fun (h : Nat × Word) => h.1 ≠ dest,
    outq := updateWhere (fun o => o.heldFor dest) (fun o => { o with held := false }) s.fabric.outq } }

/-- MEM_REQUEST_TIMEOUT: a memory request has drawn no response; its elements fail with TIMEOUT (R323, R364). -/
def execMemRequestTimeout (txid : BitVec 32) (s : State) : Res :=
  match s.memory.reqs.find? fun r => decide (r.txid = txid) && r.dev.isSome with
  | some r => .next (s.countTimeout.streamAnswer r none 3)
  | none => .next (if s.copyAwaits txid Option.isSome then s.countTimeout.copyAnswer txid none 3 else s)

/-! ### Discovery and firmware control (R363, R364) -/

/-- A link between two devices as discovery has found it, in one direction: from a device by an egress to a device, and whether it runs
version 1 (R363). -/
structure Hop where
  src : Nat
  egress : Nat
  dst : Nat
  v1 : Bool
deriving DecidableEq, Repr

def hopsOf (l : List TopoLink) : List Hop :=
  l.flatMap fun x => [{ src := x.a, egress := x.ea, dst := x.b, v1 := x.v1 }, { src := x.b, egress := x.eb, dst := x.a, v1 := x.v1 }]

/-- Breadth first: the layers of what can be reached, each thing in its first. -/
def layers {α : Type} [DecidableEq α] (step : α → List α) : Nat → List α → List α → List (List α)
  | 0, _, _ => []
  | n + 1, seen, front =>
    let seen := seen ++ front
    let new := ((front.flatMap step).filter fun a => !seen.contains a).eraseDups
    if front = [] then [] else front :: layers step n seen new

/-- The devices that discovery has met. -/
def devicesOf (hs : List Hop) : List Nat := (hs.map (·.src)).eraseDups

/-- The distance of each device from the lowest id in the system, the root of the up*/down* order. -/
def levelOf (hs : List Hop) (d : Nat) : Nat :=
  let devs := devicesOf hs
  let root := devs.foldl min (devs.headD 0)
  ((layers (fun n => (hs.filter fun h => h.src = n).map (·.dst)) devs.length [] [root]).findIdx? fun l => l.contains d).getD devs.length

/-- A link leads up: to a device nearer the root, or at the same distance with the lower id. -/
def Hop.up (hs : List Hop) (h : Hop) : Bool :=
  let a := levelOf hs h.src
  let b := levelOf hs h.dst
  decide (b < a) || (decide (a = b) && decide (h.dst < h.src))

/-- One more link of a route that goes up and then down: the device reached, whether the route has gone down, and whether it has
crossed a version-1 link. -/
def Hop.extend (hs : List Hop) (r : Nat × Bool × Bool) : List (Nat × Bool × Bool) :=
  hs.filterMap fun h =>
    if h.src ≠ r.1 ∨ (r.2.1 = true ∧ h.up hs = true) then none else some (h.dst, r.2.1 || !h.up hs, r.2.2 || h.v1)

/-- The length of the shortest up*/down* route to a device that begins with a link, and whether one of that length crosses a version-1
link. -/
def routeVia (hs : List Hop) (dst : Nat) (h : Hop) : Option (Nat × Bool) :=
  let ls := layers (Hop.extend hs) (2 * (devicesOf hs).length) [] [(h.dst, !h.up hs, h.v1)]
  match ls.findIdx? fun l => l.any fun r => r.1 = dst with
  | some k => some (k, (ls.getD k []).any fun r => decide (r.1 = dst) && r.2.2)
  | none => none

/-- The entry that holds the minimal routes from a device to another: PRIMARY is the lowest of its egresses (R359, R363). -/
def autoEntry (hs : List Hop) (me dst : Nat) : BitVec 128 :=
  let cand := (hs.filter fun h => h.src = me).filterMap fun h => (routeVia hs dst h).map fun r => (h.egress, r)
  match cand with
  | [] => 0
  | c :: rest =>
    let best := rest.foldl (fun m r => min m r.2.1) c.2.1
    let good := cand.filter fun r => r.2.1 = best
    let egress := good.foldl (fun n r => n ||| 2 ^ r.1) 0
    let low := (good.map (·.1)).foldl min 63
    BitVec.ofNat 128 (egress + low * 2 ^ 64 + 2 ^ 71 + b2n (good.any fun r => r.2.2) * 2 ^ 72)

/-- ROUTE_DISCOVERY: in AUTO mode the service cores fill the table with the minimal routes that obey up*/down* order over the links that
they have found, on this device those of its ACTIVE egresses; an id that appears twice gets an invalid entry and an alarm (R363). -/
def execRouteDiscovery (links : List TopoLink) (duplicates tn6 : List Nat) (s : State) : Res :=
  if s.fabric.rtHost then .next s
  else
    let me := s.fabric.devId.toNat
    let hs := (hopsOf links).filter fun h => decide (h.src ≠ me) || s.egressActive h.egress
    let dsts := (devicesOf hs).filter fun d => decide (d ≠ me) && !duplicates.contains d
    let tab := dsts.foldl (fun m d => SMap.put 0 m d (autoEntry hs me d)) []
    let s := { s with fabric := { s.fabric with routes := tab, topo := links, tn6 := tn6 } }
    .next ((s.each duplicates fun s d => s.alarm 0x0506 3 0 (detail [(34, d)])).refreshPrimaries)

/-! ### The FAB registers' commands -/

/-- FAB_CNT_CLEAR. -/
def execFabCntClear (p : Nat) (v : Word32) (s : State) : Res :=
  .next (if v.getLsbD 0 then
    { s with fabric := { s.fabric with counters := s.fabric.counters.filter fun c => c.1 / 32 ≠ p } }
    else s)

/-- The settings of a lane's peer transmitter. -/
def State.setEq (s : State) (p : Nat) (lane : BitVec 4) (v : EqSet) : State :=
  s.modHalf (s.marginHalf p lane.toNat) fun h => { h with eq := SMap.put (.preset 0) h.eq lane.toNat v }
def State.getEq (s : State) (p : Nat) (lane : BitVec 4) : EqSet :=
  SMap.get (.preset 0) (s.half (s.marginHalf p lane.toNat)).eq lane.toNat

/-- A sweep starts with the KIND, LANE and DWELL that the register holds; an EQ sweep takes the first preset (R369). -/
def State.beginSweep (s : State) (p : Nat) : State :=
  let m := s.marginAt p
  let s := s.modMargin p fun m =>
    { m with state := 1, reason := 0, points := 0, results := [], runKind := m.kind, runLane := m.lane, runDwell := m.dwell,
             saved := s.getEq p m.lane }
  if m.kind then s.setEq p m.lane (.preset 0) else s

/-- An EQ sweep that ends restores the settings in force when it started (R369, R370). -/
def State.restoreEq (s : State) (p : Nat) : State :=
  let m := s.marginAt p
  if m.runKind then s.setEq p m.runLane m.saved else s

/-- A write of FAB_MARGIN_CTL (R369, R370). -/
def State.writeMargin (s : State) (p : Nat) (v : Word32) : State :=
  let s := s.modMargin p fun m =>
    { m with kind := v.getLsbD 29, lane := v.extractLsb' 24 4, dwell := v.extractLsb' 19 5 }
  let m := s.marginAt p
  let s :=
    if v.getLsbD 31 then
      if m.state = 1 ∨ ¬ s.egressActive (s.marginHalf p m.lane.toNat) then s.modMargin p fun m => { m with refused := true }
      else s.beginSweep p
    else s
  if v.getLsbD 30 ∧ (s.marginAt p).state = 1 then
    (s.restoreEq p).modMargin p fun m => { m with state := 3, reason := 2 }
  else s

/-- MARGIN_START. -/
def execMarginStart (p : Nat) (v : Word32) (s : State) : Res := .next (s.writeMargin p v)
/-- MARGIN_STOP. -/
def execMarginStop (p : Nat) (v : Word32) (s : State) : Res := .next (s.writeMargin p v)

/-- MARGIN_POINT_DONE: a point of a running sweep completes (R369). An EYE sweep has 1,024 points; how many presets the peer
of an EQ sweep advertises is open, so a free value says whether the point was the last, and the 64th is. -/
def execMarginPointDone (p : Nat) (errors : Nat) (s : State) : Res :=
  let m := s.marginAt p
  if m.state ≠ 1 then .next s
  else
    let j := m.points
    let r := if m.runKind then j * 65536 else j % 32 * 2 ^ 24 + j / 32 * 65536
    let last := if m.runKind then decide (j ≥ 63) || s.freeBits 1 = 1 else decide (j ≥ 1023)
    let s := if m.runKind then s.tookFree else s
    let s := if m.runKind then (if last then s.restoreEq p else s.setEq p m.runLane (.preset (j + 1))) else s
    .next (s.modMargin p fun m =>
      { m with points := j + 1, state := if last then 2 else 1,
               results := SMap.put 0 m.results j (BitVec.ofNat 32 (r + min 0xFFFF errors)) })

/-- A device id comes into force at the ports that wait for one: the peer hears of it in a new HELLO, and the link may become ACTIVE
(R358, R366; assumption 86). -/
def State.idChanged (s : State) : State :=
  s.each (List.range 64) fun s e =>
    let st := (s.half e).state
    if st = 5 then s.sendHello e else if st = 7 then (s.sendHello e).helloDone e else if st = 8 then s.retrain e else s

/-- Set the device id unless one is set (R358). -/
def State.setDevId (s : State) (id : BitVec 15) : State :=
  ({ s with fabric := { s.fabric with devId := id, devValid := true } }).idChanged

/-- DEVICE_ID_SET: a write of FAB_DEVICE_ID. -/
def execDeviceIdSet (v : Word32) (s : State) : Res :=
  .next (
    if s.fabric.devValid then
      { s with fabric := { s.fabric with devRefused := !(v.getLsbD 30) } }
    else (s.setDevId (v.extractLsb' 0 15)))

/-- FAB_RT_DATA0–3 as an entry, its reserved bits zero. -/
def State.rtEntry (s : State) : BitVec 128 :=
  let d (i : Nat) : Nat := (SMap.get 0 s.fabric.rtData i).toNat
  BitVec.ofNat 128 (d 0 + d 1 * 2 ^ 32 + (d 2 &&& 0x1BF) * 2 ^ 64)

/-- A write of FAB_RT_CMD (R363). -/
def State.writeRtCmd (s : State) (v : Word32) : State :=
  let i := s.fabric.rtIdx.toNat
  let s := { s with fabric := { s.fabric with rtHost := v.getLsbD 31, rtRefused := s.fabric.rtRefused && !v.getLsbD 30 } }
  let s :=
    if v.getLsbD 1 then
      let e := (s.routeEntry i).toNat
      { s with fabric := { s.fabric with
        rtData := (List.range 4).foldl (fun m k => SMap.put 0 m k (BitVec.ofNat 32 (bits e (32 * k) 32))) s.fabric.rtData } }
    else s
  if v.getLsbD 0 then
    if s.fabric.rtHost then
      ({ s with fabric := { s.fabric with routes := SMap.put 0 s.fabric.routes i s.rtEntry } }).refreshPrimaries
    else { s with fabric := { s.fabric with rtRefused := true } }
  else s

/-- ROUTE_TABLE_READ. -/
def execRouteTableRead (v : Word32) (s : State) : Res := .next (s.writeRtCmd v)
/-- ROUTE_TABLE_WRITE. -/
def execRouteTableWrite (v : Word32) (s : State) : Res := .next (s.writeRtCmd v)

/-- FAB_LATE_CLEAR. -/
def execFabLateClear (v : Word32) (s : State) : Res :=
  .next (if v.getLsbD 31 then { s with fabric := { s.fabric with late := 0 } } else s)

/-! ### The host window (R314, R343, R408) -/

/-- HOST_WINDOW_REQUEST: an access through the host window is performed as a PCIe memory request; a read is in progress until its
completion. With the window disabled it has no effect (R314, R316). -/
def execHostWindowRequest (q : HostWinReq) (s : State) : Res :=
  .next (if s.locKind (hostWinBase + q.addr) = .host then
    if q.write then s.emit (.write q.addr (sliceBytes q.data 0 q.len) q.poison)
    else
      let r : MemReq :=
        { txid := s.memory.nextTx, dev := none, tile := 0, ctx := false, slot := 0, kind := 8, gran := q.addr / 64, batch := 0,
          origin := none, issued := s.time }
      ({ s with memory := { s.memory with nextTx := r.txid + 1, reqs := s.memory.reqs ++ [r] } }).emit (.read r.txid q.addr q.len)
    else s)

/-- A host read that a request waits for has ended (R345, R355). -/
def State.hostReadDone (s : State) (r : MemReq) (data : List Byte) (code : BitVec 4) : State :=
  match r.origin with
  | some p =>
    let s := { s with memory := { s.memory with reqs := eraseFirst (fun q => q = r) s.memory.reqs } }
    let n := (pktGrans p).length
    if code = 0 ∨ code = 4 then
      s.respond p 8 0 (sliceBytes data 0 (64 * n)) (if code = 4 then BitVec.ofNat 8 (2 ^ n - 1) else 0)
    else s.respond p 8 code.toNat [] 0
  | none =>
    if r.kind = 8 then { s with memory := { s.memory with reqs := eraseFirst (fun q => q = r) s.memory.reqs } }
    else s.streamAnswer r (some data) code

end Sys2Proof.Machine
end

