-- ==== Sys2Proof/Machine/XSync.lean ====
section
/-! DEFINITION. External sync groups: arrivals and releases between devices, aborts, and the calibration sweep of the sync
tree (R373–R384), with the firmware's control requests that carry the sweep (R364). -/

namespace Sys2Proof.Machine

/-- The zone whose enabled group has this id (R374). -/
def State.groupZone (s : State) (g : BitVec 16) : Option (BitVec 3) :=
  allZones.find? fun z => (s.xgroup z).enabled && decide ((s.xgroup z).gid = g.toNat)

/-- RELEASE's flags NEWCAL, RETURN, STOP, EVICT as four bits. -/
def relBits (a : SyncPkt) : BitVec 4 := BitVec.ofNat 4 (b2n a.newcal + 2 * b2n a.ret + 4 * b2n a.stop + 8 * b2n a.evict)

/-! ### Barriers (R375–R379) -/

/-- XSYNC_ARRIVE_RECEIVE: an ARRIVE from a child (R375, R377). -/
def execXsyncArriveReceive (child : BitVec 15) (a : SyncPkt) (s : State) : Res :=
  match s.groupZone a.group with
  | none => .next s
  | some z =>
    let x := s.xgroup z
    if x.state = 3 ∨ ¬ x.children.contains child then .next s
    else if a.seq = x.seq then
      .next (if x.wait.isSome then s
             else s.sendSync child 1 x.relFlags.toNat x.gid x.relPhase.toNat x.seq.toNat 0)
    else if a.seq ≠ x.nextSeq then .next (s.groupMismatch z child a.phase.toNat)
    else if x.kids.any fun k => k.1 = child then .next s
    else if x.wait.isNone ∧ x.localIn ∧ a.phase ≠ x.phase then .next (s.groupMismatch z child a.phase.toNat)
    else
      let s := s.modXgroup z fun x =>
        { x with kids := x.kids ++ [(child, a.phase)], state := if x.wait.isSome then x.state else 1 }
      .next (s.groupAdvance z)

/-- XSYNC_RELEASE_RECEIVE: a RELEASE is forwarded at once with its budget less each edge's latency, and the wait begins
(R376, R377, R384). -/
def execXsyncReleaseReceive (a : SyncPkt) (s : State) : Res :=
  match s.groupZone a.group with
  | none => .next s
  | some z =>
    let x := s.xgroup z
    if x.state = 3 ∨ a.seq ≠ x.nextSeq ∨ x.arriveSent = false ∨ x.isRoot then .next s
    else
      let x := if a.newcal then x.adopt else x
      let x := { x with state := 2, seq := a.seq, phase := a.phase, kids := [], relFlags := relBits a, relPhase := a.phase,
                        wait := some (waitSteps a.value.toNat) }
      let s := s.modXgroup z fun _ => x
      .next (s.sendReleases x x.seq (relBits a).toNat a.phase.toNat a.value.toNat)

/-- XSYNC_RELEASE_WAIT_END: the wait is over, and the zone's release goes on from exchange cycle −136 (R249, R376). -/
def execXsyncReleaseWaitEnd (zone : BitVec 3) (s : State) : Res :=
  let x := s.xgroup zone
  if x.wait.isNone ∨ (s.zone zone).bar ≠ .waitExt ∨ s.releaseHeld zone then .next s
  else
    let s := s.modXgroup zone fun x => { x with state := if x.kids = [] then 0 else 1, wait := none, localIn := false, arriveSent := false }
    .next (s.releaseBarrier zone)

/-- XSYNC_ABORT_RECEIVE: an ABORT goes on to the other neighbours, and the member zone aborts (R378). -/
def execXsyncAbortReceive (sender : BitVec 15) (a : SyncPkt) (s : State) : Res :=
  match s.groupZone a.group with
  | none => .next s
  | some z =>
    if (s.xgroup z).state = 3 then .next s
    else
      let origin := s.log.next.toNat
      .next ((s.groupAbort z (bits a.value.toNat 0 4) (some sender)).zoneAbort z origin)

/-- XSYNC_ARRIVE_REPEAT: an ARRIVE that has drawn no answer is sent again and counted (R377). -/
def execXsyncArriveRepeat (zone : BitVec 3) (s : State) : Res :=
  let x := s.xgroup zone
  match x.parent with
  | some p =>
    if x.enabled ∧ x.state ≠ 3 ∧ x.arriveSent ∧ x.wait.isNone ∧ ¬ x.isRoot then
      let s := s.modXgroup zone fun x => { x with late := satInc x.late }
      .next (s.sendSync p 0 0 x.gid x.phase.toNat x.nextSeq.toNat 0)
    else .next s
  | none => .next s

/-- XSYNC_PEER_LOST: a tree neighbour, whose entry has had no route or no ACTIVE egress for 10 ms, is lost (R378). -/
def execXsyncPeerLost (zone : BitVec 3) (peer : BitVec 15) (s : State) : Res :=
  let x := s.xgroup zone
  if x.enabled ∧ x.state ≠ 3 ∧ x.neighbours.contains peer ∧ s.activeOf (s.routeEntry peer.toNat) = [] then
    let origin := s.log.next.toNat
    .next ((s.groupAbort zone 2 none).zoneAbort zone origin)
  else .next s

/-- FAB_XSYNC_LATE_CLEAR (R377). -/
def execFabXsyncLateClear (zone : BitVec 3) (v : Word32) (s : State) : Res :=
  .next (if v.getLsbD 31 then s.modXgroup zone fun x => { x with late := 0 } else s)

/-! ### The calibration sweep (R381–R384) -/

/-- DEF_NS: values below 500 act as 500. -/
def State.defNs (s : State) : Nat := max 500 (bits s.fabric.xctl.toNat 0 12)
/-- H × DEF_NS at the root; D_max reads 0 elsewhere (R383, R384). -/
def State.defaultDmax (s : State) (x : XGroup) : Nat := if x.isRoot then bits x.tree.toNat 0 4 * s.defNs else 0

/-- A firmware request to a peer: the message is the firmware's, a free value (R355, R364). -/
def State.ctrlRequest (s : State) (peer : BitVec 15) : State :=
  let code := (s.freeBits 16).toNat
  let s := { s.tookFree with fabric := { s.fabric with ctrlReqs := s.fabric.ctrlReqs ++ [(peer, 0)] } }
  s.sendPkt (s.mkPkt 0 peer 0 0 code [])

/-- The root's record of a break, and the D_max that goes with it (R383). -/
def State.recordBreak (s : State) (z : BitVec 3) (index : Nat) (dev peer : BitVec 15) (edges maxPath : Nat) : State :=
  let x := s.xgroup z
  if x.calState = 1 then
    let s := s.modXgroup z fun x =>
      { x with calState := 3, breakReason := 1, breakIndex := BitVec.ofNat 15 index, breakDev := dev, breakPeer := peer,
               measured := BitVec.ofNat 15 edges, walk := none,
               pendDmax := some (BitVec.ofNat 20 (max maxPath (s.defaultDmax x))) }
    let s := s.alarm 0x0508 3 z.toNat (xsyncDetail z (s.xgroup z) 1)
    s.sweepReplies z
  else s

/-- The walk stops on this device: the root records it, another device reports it to the root (R383). -/
def State.walkBreak (s : State) (z : BitVec 3) (peer : BitVec 15) : State :=
  let x := s.xgroup z
  if x.isRoot then
    let edges := match x.walk with
      | some (_, 64, _, _) => x.nextChain
      | _ => x.nextChain - 1
    s.recordBreak z x.nextChain s.fabric.devId peer edges x.maxPath
  else (s.modXgroup z fun x => { x with walk := none }).ctrlRequest x.root

/-- Send PROBE n of edge j (R381). -/
def State.probe (s : State) (z : BitVec 3) (j n : Nat) : State :=
  let x := s.xgroup z
  let e := SMap.get XEdge.reset x.edges j
  s.sendSync e.child 3 0 x.gid n 0 0

/-- The device that holds the walk goes on: to its next unmeasured child, or back to its parent; at the root the sweep is
complete (R382). -/
def State.walkOn (s : State) (z : BitVec 3) : State :=
  let x := s.xgroup z
  match x.edges.find? fun e => e.2.valid && !e.2.pendMeas with
  | some e => (s.modXgroup z fun x => { x with walk := some (e.1, 0, 0, 0) }).probe z e.1 0
  | none =>
    if x.isRoot then
      let s := s.modXgroup z fun x =>
        { x with walk := none, calState := 2, measured := BitVec.ofNat 15 (x.nextChain - 1),
                 pendDmax := some (BitVec.ofNat 20 x.maxPath) }
      s.sweepReplies z
    else
      let s := s.modXgroup z fun x => { x with walk := some (64, 64, 0, 0) }
      match x.parent with
      | some p => s.ctrlRequest p
      | none => s

/-- Pending values of a device that the sweep has not measured. -/
def XGroup.unmeasured (x : XGroup) : XGroup :=
  { x with edges := x.edges.map fun e => (e.1, { e.2 with pendMeas := false, pendLat := 0 }) }

/-- A sweep starts at the root (R382, R384); one that runs already goes on. -/
def State.startSweep (s : State) (z : BitVec 3) : State :=
  let x := s.xgroup z
  if x.enabled && x.isRoot && x.state ≠ 3 && x.calState ≠ 1 then
    let s := s.modXgroup z fun x =>
      { x.unmeasured with calState := 1, breakIndex := 0, measured := 0, breakReason := 0, breakDev := 0, breakPeer := 0,
                          pendPathMeas := true, pendPath := 0, chain := 0, nextChain := 1, maxPath := 0 }
    s.walkOn z
  else s

/-- XSYNC_PROBE_RECEIVE: a child returns the PROBE as an ECHO with its number (R381). -/
def execXsyncProbeReceive (sender : BitVec 15) (a : SyncPkt) (s : State) : Res :=
  match s.groupZone a.group with
  | none => .next s
  | some z => .next (s.sendSync sender 4 0 (s.xgroup z).gid a.phase.toNat 0 0)

/-- L of an edge: half of the average round trip less 20 ns, rounded up and capped (R381). -/
def edgeLatency (sum : Nat) : Nat := min 4095 (ceilDiv (sum - 1280) 128)

/-- XSYNC_ECHO_RECEIVE: an ECHO with its round trip in ns. After 64 the edge is measured and the walk passes to its child
(R381, R382). -/
def execXsyncEchoReceive (sender : BitVec 15) (a : SyncPkt) (rtt : Nat) (s : State) : Res :=
  match s.groupZone a.group with
  | none => .next s
  | some z =>
    let x := s.xgroup z
    match x.walk with
    | none => .next s
    | some (j, n, sum, _) =>
      let e := SMap.get XEdge.reset x.edges j
      if e.valid = false ∨ e.child ≠ sender ∨ n ≥ 64 ∨ a.phase.toNat ≠ n then .next s
      else if n + 1 < 64 then
        .next ((s.modXgroup z fun x => { x with walk := some (j, n + 1, sum + rtt, 0) }).probe z j (n + 1))
      else
        let l := edgeLatency (sum + rtt)
        let p := x.pendPath.toNat + l
        let s := s.modXgroup z fun x =>
          { x with walk := some (j, 64, 0, 0), maxPath := max x.maxPath p,
                   edges := SMap.put XEdge.reset x.edges j { e with pendMeas := true, pendLat := BitVec.ofNat 12 l } }
        .next (s.ctrlRequest sender)

/-- XSYNC_ECHO_TIMEOUT: a missing ECHO is asked for again, three times at most; then the edge is broken (R381, R383). -/
def execXsyncEchoTimeout (zone : BitVec 3) (s : State) : Res :=
  let x := s.xgroup zone
  match x.walk with
  | none => .next s
  | some (j, n, sum, again) =>
    if n ≥ 64 then .next s
    else if again < 3 then
      .next ((s.modXgroup zone fun x => { x with walk := some (j, n, sum, again + 1) }).probe zone j n)
    else .next (s.walkBreak zone (SMap.get XEdge.reset x.edges j).child)

/-- XSYNC_WALK_MESSAGE: the walk arrives from the parent, or comes back from a child (R382). -/
def execXsyncWalkMessage (zone : BitVec 3) (m : WalkMsg) (s : State) : Res :=
  let x := s.xgroup zone
  if ¬ x.enabled ∨ x.state = 3 then .next s
  else match m with
    | .down path chain measured =>
      if x.isRoot then .next s
      else
        let s := s.modXgroup zone fun x =>
          { x.unmeasured with pendPathMeas := measured, pendPath := BitVec.ofNat 20 path, chain := chain,
                              nextChain := chain + 1, maxPath := path }
        .next (s.walkOn zone)
    | .up maxPath chain _ =>
      match x.walk with
      | some (j, 64, _, _) =>
        if j < 64 then
          .next ((s.modXgroup zone fun x => { x with maxPath := max x.maxPath maxPath, nextChain := chain }).walkOn zone)
        else .next s
      | _ => .next s

/-- XSYNC_BREAK_REPORT: the report of a break reaches the root (R383). -/
def execXsyncBreakReport (zone : BitVec 3) (index : Nat) (dev peer : BitVec 15) (edges maxPath : Nat) (s : State) : Res :=
  let x := s.xgroup zone
  .next (if x.enabled && x.isRoot then s.recordBreak zone index dev peer edges (max x.maxPath maxPath) else s)

/-! ### The tree (R373) -/

/-- The TN8 devices at the far ends of ACTIVE links, in increasing order. -/
def State.neighbourIds (s : State) : List Nat :=
  (List.range 32768).filter fun d => s.fabric.halves.any fun e =>
    decide (e.2.state = 6) && e.2.peerValid && !e.2.peerTn6 && decide (e.2.peerDev.toNat = d)

/-- A device is a TN6, as discovery or its HELLO has shown. -/
def State.isTn6 (s : State) (d : Nat) : Bool :=
  s.fabric.tn6.contains d || s.fabric.halves.any fun e => e.2.peerValid && e.2.peerTn6 && decide (e.2.peerDev.toNat = d)

/-- The links among TN8 devices: those that discovery has found, and this device's ACTIVE ones. -/
def State.treeHops (s : State) : List Hop :=
  let me := s.fabric.devId.toNat
  (hopsOf s.fabric.topo ++ s.neighbourIds.flatMap fun d =>
    [({ src := me, egress := 0, dst := d, v1 := false } : Hop), { src := d, egress := 0, dst := me, v1 := false }]).filter fun h =>
      !s.isTn6 h.src && !s.isTn6 h.dst

/-- The distance of a device from the root over these links, where it can be reached. -/
def depthOf (hs : List Hop) (root d : Nat) : Option Nat :=
  (layers (fun n => (hs.filter fun h => h.src = n).map (·.dst)) (devicesOf hs).length [] [root]).findIdx? fun l => l.contains d

/-- The parent of a device: its neighbour nearest the root, ties going to the lower id. -/
def parentOf (hs : List Hop) (root d : Nat) : Option Nat :=
  let near := ((hs.filter fun h => h.src = d).map (·.dst)).filterMap fun n => (depthOf hs root n).map fun k => (n, k)
  match near with
  | [] => none
  | n :: r => some (r.foldl (fun b e => if e.2 < b.2 ∨ (e.2 = b.2 ∧ e.1 < b.1) then e else b) n).1

/-- The tree that the firmware builds, breadth first over ACTIVE links from the root (R373). The parent is the neighbour nearest the
root, where discovery has not shown the way to the root a neighbour that is free. A neighbour whose parent this device is becomes a
child where it is a member of the group, which other devices' hosts decide: a free value; with the height, free from 1 up where there
are children (assumption 59). -/
def State.buildTree (s : State) (z : BitVec 3) (root : BitVec 15) : Option State :=
  let ns := s.neighbourIds
  let hs := s.treeHops
  let me := s.fabric.devId.toNat
  let own := decide (root = s.fabric.devId)
  if !own && ns.isEmpty then none
  else
    let known := decide (depthOf hs root.toNat me ≠ none)
    let parent := match known, parentOf hs root.toNat me with
      | true, some p => p
      | _, _ => ns.getD ((s.freeBits 16).toNat % max 1 ns.length) 0
    let mine (d : Nat) : Bool := decide (d ≠ root.toNat) && (own || decide (d ≠ parent)) && (!known || decide (parentOf hs root.toNat d = some me))
    let rest := ns.filter mine
    let kids := ((rest.zip (List.range rest.length)).filter fun p => (Config.freeValue (s.free + 2 + p.2)) % 2 = 1).map (·.1)
    let kids := kids.take 64
    let free := (BitVec.ofNat 4 (Config.freeValue (s.free + 1))).toNat
    let depth := if own then 0 else if known then min 15 ((depthOf hs root.toNat me).getD 1) else max 1 free
    let height := max free (if kids = [] then depth else min 15 (depth + 1))
    let tree := b2n (!own) * 2 ^ 31 + (if own then 0 else parent) * 65536 + depth * 256 + height
    let edges : SMap XEdge := numbered 0 (kids.map fun d => { XEdge.reset with valid := true, child := BitVec.ofNat 15 d })
    let s := { s with free := s.free + 2 + rest.length }
    some (s.modXgroup z fun x => { x with root := root, tree := BitVec.ofNat 32 tree, edges := edges })

/-! ### Repeated sweeps and the registers (R384) -/

/-- The edge at which a sweep stopped has a route again, as far as the root's table shows it: to the edge's far end, or, where the
root is not an end of it, to both (R384). -/
def State.edgeRouted (s : State) (x : XGroup) : Bool :=
  [x.breakDev, x.breakPeer].all fun d => s.isOwn d || decide (s.activeOf (s.routeEntry d.toNat) ≠ [])

/-- SWEEP_REPEAT: firmware repeats a sweep that stopped at a broken edge once the edge has a route again, and any sweep when it has
rebuilt the tree (R384). -/
def execSweepRepeat (zone : BitVec 3) (rebuilt : Bool) (s : State) : Res :=
  let x := s.xgroup zone
  .next (
    if rebuilt then
      (if x.enabled && x.isRoot then ((s.buildTree zone x.root).getD s).startSweep zone else s)
    else if x.calState = 3 ∧ x.breakReason = 1 ∧ s.edgeRouted x = true then s.startSweep zone else s)

/-- A write of FAB_XSYNC_CFG_z. While EN is 1 the other RW fields hold; a group that EN newly enables is configured
afresh: IDLE, nothing measured in force, D_max = H × DEF_NS (R378, R383, R384). -/
def State.writeXsyncCfg (s : State) (z : BitVec 3) (v : Word32) (root : Option (BitVec 15) := none) : State :=
  let x := s.xgroup z
  let s :=
    if x.enabled then s.modXgroup z fun x => { x with cfg := if v.getLsbD 31 then x.cfg else x.cfg &&& 0x7FFFFFFF }
    else
      let c : Word32 := v &&& 0xC000FFFF
      if v.getLsbD 31 then
        let known : Option (BitVec 15) :=
          if c.getLsbD 30 then some s.fabric.devId else if bits x.tree.toNat 8 4 = 1 then x.parent else none
        let any : BitVec 15 := s.freeBits 15
        s.tookFree.modXgroup z fun x =>
          let fresh : XGroup :=
            { XGroup.reset with root := (root <|> known).getD any, cfg := c, tree := x.tree, late := x.late,
                                edges := x.edges.map fun (e : Nat × XEdge) =>
                                  (e.1, { XEdge.reset with valid := e.2.valid, child := e.2.child }) }
          { fresh with dmax := BitVec.ofNat 20 (s.defaultDmax fresh) }
      else s.modXgroup z fun x => { x with cfg := c }
  if v.getLsbD 29 then s.startSweep z else s

/-- A write of FAB_XSYNC_TREE_z, ignored while EN is 1. -/
def State.writeXsyncTree (s : State) (z : BitVec 3) (v : Word32) : State :=
  if (s.xgroup z).enabled then s else s.modXgroup z fun x => { x with tree := v &&& 0xFFFF0F0F }

/-- A write of FAB_XSYNC_EDGE_z_j, ignored while EN is 1. -/
def State.writeXsyncEdge (s : State) (z : BitVec 3) (j : Nat) (v : Word32) : State :=
  if (s.xgroup z).enabled then s
  else s.modXgroup z fun x =>
    let e := SMap.get XEdge.reset x.edges j
    let e' := { e with valid := v.getLsbD 31, child := BitVec.ofNat 15 (bits v.toNat 12 15) }
    { x with edges := SMap.put XEdge.reset x.edges j e' }

/-- XSYNC_SWEEP_START: a write of FAB_XSYNC_CFG_z with its SWEEP bit (R384). -/
def execXsyncSweepStart (zone : BitVec 3) (v : Word32) (s : State) : Res := .next (s.writeXsyncCfg zone v)

/-! ### Control requests (R364, R383) -/

/-- The walk message on its way to a peer fails (R383). -/
def State.walkFails (s : State) (peer : BitVec 15) : State :=
  s.each allZones fun s z =>
    let x := s.xgroup z
    match x.walk with
    | some (j, 64, _, _) =>
      if (if j = 64 then x.parent = some peer else (SMap.get XEdge.reset x.edges j).child = peer) then s.walkBreak z peer
      else s
    | _ => s

/-- CONTROL_REQUEST_TIMEOUT: a firmware request to a peer that has drawn no answer is counted and retried three times, then the peer is
unreachable (R364, R453). The message is the firmware's, a free value. -/
def execControlRequestTimeout (peer : BitVec 15) (s : State) : Res :=
  match s.fabric.ctrlReqs.find? fun r => r.1 = peer with
  | none => .next s
  | some r =>
    let s := s.countTimeout
    let rest := s.fabric.ctrlReqs.filter fun q => q.1 ≠ peer
    if r.2 ≥ 3 then
      let u := s.fabric.unreachable
      let s := { s with fabric := { s.fabric with ctrlReqs := rest,
                                                  unreachable := if u.contains peer.toNat then u else u ++ [peer.toNat] } }
      .next (s.walkFails peer)
    else
      let code := (s.freeBits 16).toNat
      let s := { s.tookFree with fabric := { s.fabric with ctrlReqs := rest ++ [(peer, r.2 + 1)] } }
      .next (s.sendPkt (s.mkPkt 0 peer 0 0 code []))

end Sys2Proof.Machine
end

