-- ==== Sys2Proof/Machine/Power.lean ====
section
/-! DEFINITION. Power domains (R388–R391), the governor's events (R397–R403), the energy counter (R404), sensors and
thermal limits (R405–R407), and the range checks of reports (R451). -/

namespace Sys2Proof.Machine

/-! ### Power domains (R388–R390) -/

/-- Every domain of a list is off, and none is being switched on. -/
def State.domsOff (s : State) (l : List Nat) : Bool := l.all fun d => !s.domainOn d && !s.power.domPending.contains d

/-- Every context of a cluster is EMPTY or EVICTED. -/
def State.clusterIdle (s : State) (k : Nat) : Bool :=
  s.tiles.all fun p => decide (p.1 / 16 ≠ k) ||
    [p.2.c0, p.2.c1].all fun y => decide (y.phase = .empty) || decide (y.phase = .evicted)

/-- A context is loaded on some tile. -/
def State.anyLoadedCtx (s : State) : Bool :=
  s.tiles.any fun p => decide (p.2.c0.phase ≠ .empty) || decide (p.2.c1.phase ≠ .empty)

/-- A domain may be off now (R388). The host port's condition is the host's, so a request never meets it (R389). -/
def State.mayBeOff (s : State) (d : Nat) : Bool :=
  if d < 144 then s.clusterIdle (16 * (d / 9) + d % 9)
  else if d < 160 then s.domsOff ((List.range 9).map fun c => 9 * (d - 144) + c)
  else if d < 162 then s.domsOff ((List.range 16).map fun g => 144 + g)
  else if d < 170 then !s.anyLoadedCtx && !s.memory.intlvBusy
  else if d < 202 then !s.portEn (d - 170)
  else if d < 206 then s.domsOff ((List.range 8).map fun i => 170 + 8 * (d - 202) + i)
  else false

/-- The tiles of a cluster that loses or regains its power: their state after a tile reset over the zeroed scratchpads of all 17
positions (R390); the controller's spare map is the steward's to keep, and a pending substitution becomes active (R33). -/
def State.clusterPowered (s : State) (k : Nat) : State :=
  let l := clusterTiles k
  let zs := s.zonesOf (bothCtx l)
  let s := s.each (bothCtx l) fun s m => s.emptyCtx m.1 m.2 false
  let fresh : Tile := { Tile.reset with c0 := Ctx.afterReset false, c1 := Ctx.afterReset false }
  let s := s.each l fun s t => s.modTile t fun _ => fresh
  let s := s.modCluster k fun c =>
    { Cluster.reset with spareFailed := c.spareFailed, secondFail := c.secondFail, pend := c.pend, active := c.active,
                         pendReason := c.pendReason }
  (s.applySubst k).each zs State.zoneEmptied

/-- A region whose trace buffer and its control registers are at their reset values (R482). -/
def Region.traceLost (r : Region) : Region :=
  let z := Region.reset
  { r with trcCtl := z.trcCtl, trcTiles := z.trcTiles, trcLo := z.trcLo, trcHi := z.trcHi, trcTag := z.trcTag, trcBuf := z.trcBuf,
           trcNext := z.trcNext, trcWrapped := z.trcWrapped, trcSeq := z.trcSeq, trcLost := z.trcLost, trcRdIdx := z.trcRdIdx,
           trcCapture := z.trcCapture }

/-- Switch a domain off (R390). -/
def State.switchOff (s : State) (d : Nat) : State :=
  if 170 ≤ d ∧ d < 202 then s.writePortCfg (d - 170) (s.portCfg (d - 170) &&& 0x7F7FFFFF)
  else
    let off := s.power.domOff
    let s := { s with power := { s.power with domOff := if off.contains d then off else off ++ [d],
                                              domPending := s.power.domPending.filter fun e => e ≠ d } }
    if d < 144 then s.clusterPowered (16 * (d / 9) + d % 9)
    else if d < 160 then s.modRegion (d - 144) fun r => { r.traceLost with xlatCache := [], stewardOk := false }
    else if 162 ≤ d ∧ d < 170 then s.modStack (d - 162) fun m => { m with selfRefresh := true, openRows := [] }
    else s

/-- What happens when a domain has come on (R390), but for the commands and accesses that wait for it. -/
def State.switchedOn (s : State) (d : Nat) : State :=
  let s := { s with power := { s.power with domOff := s.power.domOff.filter fun e => e ≠ d,
                                            domPending := s.power.domPending.filter fun e => e ≠ d } }
  if d < 144 then s.clusterPowered (16 * (d / 9) + d % 9)
  else if d < 160 then (s.modRegion (d - 144) fun r => { r with xlatCache := [], stewardOk := true }).recalibrate (d - 144)
  else if d < 162 then
    s.each (List.range 8) fun s i => s.recalibrate (8 * (d - 160) + i)
  else if d < 170 then (s.modStack (d - 162) fun m => { m with selfRefresh := false }).serveParked
  else if d < 202 then
    let p := d - 170
    let s := s.modHalf (2 * p) fun _ => { Half.reset with state := 1 }
    if s.portSplit p then s.modHalf (2 * p + 1) fun _ => { Half.reset with state := 1 } else s
  else s

/-- Automatic switching off (R389). Pairs, bridge halves, ports and the host port are never switched off by it. -/
def State.domainIdle (s : State) (dom : Nat) : State :=
  let auto := decide (dom < 160) || (decide (202 ≤ dom) && decide (dom < 206))
  if s.power.domCfg.getLsbD 31 ∧ auto ∧ s.domainOn dom ∧ ¬ s.power.domPending.contains dom ∧ s.mayBeOff dom then s.switchOff dom
  else s

/-- One expert request to switch a domain off or on (R389), with its bit of PWR_DOM_REQ written. The answer says whether it was
granted; a refused request changes no domain. A domain comes on only where those it needs are not held off (R388), and either
request for the host port is refused. Bits of no domain ask for nothing (assumption 38). -/
def State.requestDomain (s : State) (d : Nat) (off : Bool) : State × Bool :=
  if d ≥ 207 then (s, true)
  else if 170 ≤ d ∧ d < 202 then
    if off then (s.switchOff d, true)
    else if s.domBlocked d then (s.refuseDomain d, false)
    else (if s.portEn (d - 170) then s else s.writePortCfg (d - 170) (s.portCfg (d - 170) ||| 0x80000000), true)
  else if d = 206 then (s.refuseDomain d, false)
  else if off then
    if s.domainFused d then (s, true)
    else if s.mayBeOff d then
      (if s.domainOn d then s.switchOff d
       else { s with power := { s.power with domPending := s.power.domPending.filter fun e => e ≠ d } }, true)
    else (s.refuseDomain d, false)
  else if s.domBlocked d then (s.refuseDomain d, false)
  else (s.switchOn d, true)

/-- A request by the DOMAIN command: it writes the domain's one bit (R389). -/
def State.askDomain (s : State) (d : Nat) (off : Bool) : State × Bool := (s.setDomReq d off).requestDomain d off

/-- PWR_DOM_REQ_w takes the written value, but for the bits of ports, which are FAB_PORT_CFG.EN's (R389), and each bit is a
request. -/
def State.takeDomReq (s : State) (w : Nat) (v : Word32) : State :=
  let s := s.each ((List.range 32).filter fun b => ¬ (170 ≤ 32 * w + b ∧ 32 * w + b < 202)) fun s b =>
    s.setDomReq (32 * w + b) (v.getLsbD b)
  s.each (List.range 32) fun s b => (s.requestDomain (32 * w + b) (v.getLsbD b)).1

/-- The management processor waits for the domains of the command that it has taken up last (R389). -/
def State.domHeld (s : State) : Bool := s.power.domHold && !s.idleMgmt

/-- Requests and idle domains that arrived behind a waiting command are taken up, in their order, once it has gone on (R389). -/
def State.domSettle (s : State) : State :=
  if s.domHeld then s
  else
    let l := s.power.domWork
    let s := { s with power := { s.power with domHold := false, domWork := [] } }
    s.each l fun s e => match e with
      | .request w v => s.takeDomReq w v
      | .idle d => s.domainIdle d

/-- A request or an idle domain arrives. -/
def State.domArrives (s : State) (e : DomWork) : State :=
  { s with power := { s.power with domWork := s.power.domWork ++ [e] } }.domSettle

/-- A write of PWR_DOM_REQ_w (R389). -/
def State.writeDomReq (s : State) (w : Nat) (v : Word32) : State := s.domArrives (.request w v)

/-- PWR_DOM_REQ_w as it reads: the value last written (R14). -/
def State.domReqWord (s : State) (w : Nat) : Word32 :=
  s.power.domWork.foldl (fun a e => match e with
    | .request w' v => if w' = w then v else a
    | .idle _ => a) (SMap.get 0 s.power.domReq w)

/-- DOMAIN_IDLE_EXPIRY (R389). -/
def execDomainIdleExpiry (dom : Nat) (s : State) : Res := .next (s.domArrives (.idle dom))

/-- DOMAIN_REQUEST_WRITE (R389). -/
def execDomainRequestWrite (off : Nat) (v : Word32) (s : State) : Res :=
  if 0x130 ≤ off % 0x100000 ∧ off % 0x100000 < 0x14C ∧ off % 4 = 0 then .next (s.writeDomReq ((off % 0x100000 - 0x130) / 4) v)
  else .next s

/-! ### Power samples and the excess throttle (R403, R404) -/

/-- The 2 µs average of the samples exceeds the cap. -/
def State.excessNow (s : State) : Bool :=
  decide (s.power.samples.length ≥ 4) && decide ((s.power.samples.take 4).sum > 4 * s.power.cap.toNat)

/-- Take a measurement into the energy count and the averages (R403, R404). -/
def State.takeSample (s : State) (watts : Nat) : State :=
  let half := s.power.energyRem + watts
  let samples := (watts :: s.power.samples).take 20
  { s with power := { s.power with
      samples := samples, energy := s.power.energy + BitVec.ofNat 64 (half / 2), energyRem := half % 2
      draw := BitVec.ofNat 12 (samples.sum / samples.length) } }

/-- The excess condition arises: an event, and the throttle acts (R403). -/
def State.excessEvent (s : State) : State :=
  { s with power := { s.power with excess := true, excessCount := satInc s.power.excessCount } }.alarm 0x0405 3 0
    (detail [(32, (s.power.samples.take 4).sum / 4)])

/-- The 10 µs average is at or below PWR_CAP − GUARD. -/
def State.isCalm (s : State) : Bool :=
  decide ((s.power.samples.sum : Int) ≤ ((s.power.cap.toNat : Int) - (s.guardW : Int)) * (s.power.samples.length : Int))

/-- The throttle ends after 100 µs of calm (R403). -/
def State.excessEnd (s : State) : State :=
  let calm := if s.isCalm then s.power.calm + 1 else 0
  if s.power.excess = true ∧ 200 ≤ calm ∧ s.excessNow = false then
    { s with power := { s.power with excess := false, calm := 0 } }
  else { s with power := { s.power with calm := calm } }

/-- POWER_SAMPLE: one measurement in W, every half microsecond (R403, R404). The condition is judged against PWR_CAP as it
stands, so a lowered cap raises it at the next sample (R392). -/
def execPowerSample (watts : Nat) (s : State) : Res :=
  let t := s.takeSample watts
  let t := if t.excessNow = true ∧ s.power.excessCond = false then t.excessEvent else t
  .next { t with power := { t.power with excessCond := t.excessNow } }.excessEnd

/-- MONITOR_CALIBRATION: the monitors take the regulators' reading as their reference; no register holds the factor
(R403). A sample arrives calibrated. -/
def execMonitorCalibration (_watts : Nat) (s : State) : Res := .next s

/-- A write of PWR_CAP: clamped to 1,000–2,200 W (R392). -/
def State.writeCap (s : State) (v : Word32) : State :=
  let w := bits v.toNat 0 12
  { s with power := { s.power with cap := BitVec.ofNat 12 (min 2200 (max 1000 w)) } }

/-- PWR_CAP_WRITE. -/
def execPwrCapWrite (v : Word32) (s : State) : Res := .next (s.writeCap v)

/-- PWR_EXCESS_CLEAR. -/
def execPwrExcessClear (v : Word32) (s : State) : Res :=
  .next (if v.getLsbD 31 then { s with power := { s.power with excessCount := 0 } } else s)

/-! ### The governor (R397–R401) -/

/-- PHASE_ENTRY_RECOMPUTE: a record's entry is chosen again (R398, R402). In FIXED mode no entry is published. -/
def execPhaseEntryRecompute (zone : BitVec 3) (phase : BitVec 8) (s : State) : Res :=
  .next (if s.govFixed then s else (s.recomputeEntry (256 * zone.toNat + phase.toNat)).setVoltages)

/-- SHARE_RECOMPUTE: shares of the zones with a started member, and all their entries (R397). -/
def execShareRecompute (s : State) : Res :=
  if s.govFixed then .next s
  else
    let zs := allZones.filter fun z => s.zoneStarted z
    let s := s.each zs fun s z => s.modZonePower z.toNat fun e => { e with share := s.shareOf z }
    let s := s.each zs fun s z => s.each (List.range 256) fun s p => s.recomputeEntry (256 * z.toNat + p)
    .next s.setVoltages

/-- CLOCK_CODE_STEP: a region's compute output moves one code toward its target (R400). -/
def execClockCodeStep (region : Nat) (s : State) : Res :=
  if region < 16 then
    .next (s.modRegion region fun r =>
      if r.clkActive.toNat < r.clkTarget.toNat then { r with clkActive := r.clkActive + 1 }
      else if r.clkTarget.toNat < r.clkActive.toNat then { r with clkActive := r.clkActive - 1 }
      else r)
  else .next s

/-! ### Reports and temperatures (R405–R407, R451) -/

/-- A 32-bit two's-complement value. -/
def valueOf (i : Int) : Nat := (BitVec.ofInt 32 i).toNat

/-- A report fails its check: counted, and an alarm (R451). `row` is the row of R451's table, counted from 0. -/
def State.rangeFault (s : State) (row unit : Nat) (value : Int) : State :=
  { s with chip := { s.chip with extRange := satInc s.chip.extRange } }.alarm 0x0407 3 unit
    (detail [(32, row), (33, unit), (36, valueOf value)])

/-- The readings of the sensors of a die that are not excluded. -/
def DieTherm.readings (t : DieTherm) : List (Nat × Int) :=
  t.sensors.filterMap fun e => if t.excluded.contains e.1 then none else e.2.map fun v => (e.1, v)

/-- The highest of them, zero with none. -/
def DieTherm.highest (t : DieTherm) : Int :=
  match t.readings.map (·.2) with
  | [] => 0
  | v :: r => r.foldl max v

def State.throttleC (s : State) : Int := (max 70 (min 95 (bits s.power.thermCfg.toNat 0 8)) : Nat)
def State.hbmLimit (s : State) : Nat := min 95 (bits s.power.thermCfg.toNat 8 8)

/-- JUNCTION_SENSOR_READ (R405, R451). -/
def execJunctionSensorRead (die sensor : Nat) (temp : Int) (s : State) : Res :=
  if die ≥ 2 ∨ sensor ≥ 64 then .next s
  else
    let last := SMap.get none (s.dieTherm die).sensors sensor
    let near := match last with
      | some v => decide (temp - v ≤ 20) && decide (v - temp ≤ 20)
      | none => true
    let finish (t : DieTherm) : DieTherm := { t with maxT := BitVec.ofInt 8 t.highest }
    if -40 ≤ temp ∧ temp ≤ 150 ∧ near = true then
      .next (s.modDie die fun t =>
        finish { t with sensors := SMap.put none t.sensors sensor (some temp)
                        excluded := t.excluded.filter fun e => e ≠ sensor })
    else
      let s := s.modDie die fun t =>
        finish { t with excluded := if t.excluded.contains sensor then t.excluded else t.excluded ++ [sensor] }
      .next (s.rangeFault 0 die temp)

/-- A die is at or above throttle onset (R405, R406). -/
def State.dieHot (s : State) (d : Nat) : Bool :=
  decide ((s.dieTherm d).excluded.length > 8) || (s.dieTherm d).readings.any fun r => decide (r.2 ≥ s.throttleC)

/-- THERMAL_CAP_STEP: one step of a die's thermal cap code (R406). -/
def execThermalCapStep (die : Nat) (s : State) : Res :=
  if die ≥ 2 then .next s
  else
    let t := s.dieTherm die
    if s.dieHot die then
      let s := if t.cap.toNat = 0 then s else s.modDie die fun t =>
        { t with cap := t.cap - 1, lowered := t.lowered ++ [(s.time + 100000, t.cap)] }
      let hot := (t.readings.find? fun r => decide (r.2 ≥ s.throttleC)).getD (0, t.highest)
      let s := s.alarm 0x0406 3 die (detail [(32, valueOf hot.2 % 65536), (34, die), (35, hot.1)])
      .next ((s.setVoltages).retarget)
    else if t.readings.all (fun r => decide (r.2 ≤ s.throttleC - 3)) && decide (t.cap.toNat < 42) then
      .next (((s.modDie die fun t => { t with cap := t.cap + 1 }).setVoltages).retarget)
    else .next s

/-- The HBM limit of R406 with the temperatures now held. -/
def State.hbmThrottle (s : State) : Bool :=
  let hot (m : Nat) : Bool := decide ((s.stack m).temp.toNat ≥ s.hbmLimit) || decide (SMap.get 0 s.power.hbmBad m ≥ 3)
  let cool (m : Nat) : Bool := decide ((s.stack m).temp.toNat + 3 ≤ s.hbmLimit) && decide (SMap.get 0 s.power.hbmBad m < 3)
  (List.range 8).any hot || (s.power.hbmThr && !((List.range 8).all cool))

/-- HBM_TEMPERATURE_REPORT (R312, R406, R451). A stack that no longer reports has failed, and the device fences itself (R385;
assumption 88). -/
def execHbmTemperatureReport (stack : Nat) (temp : Option Int) (s : State) : Res :=
  match temp with
  | none => .next (if stack ≥ 8 then s else s.fence noRecord)
  | some temp =>
  if stack ≥ 8 then .next s
  else
    let s :=
      if 0 ≤ temp ∧ temp ≤ 125 then
        let s := s.modStack stack fun m => { m with temp := BitVec.ofInt 8 temp, refDouble := decide (temp > 85) }
        { s with power := { s.power with hbmBad := SMap.put 0 s.power.hbmBad stack 0 } }
      else
        let s := { s with power := { s.power with
            hbmBad := SMap.put 0 s.power.hbmBad stack (SMap.get 0 s.power.hbmBad stack + 1) } }
        s.rangeFault 1 stack temp
    let thr := s.hbmThrottle
    let s := if thr && !s.power.hbmThr then
        s.alarm 0x0406 3 stack (detail [(32, (s.stack stack).temp.toNat)]) else s
    .next ({ s with power := { s.power with hbmThr := thr } }.retarget)

/-- THERMAL_TRIP: a sensor reaches 105 °C (R407). The trip's record reaches the log before the fence that names it. -/
def execThermalTrip (die sensor : Nat) (temp : BitVec 8) (s : State) : Res :=
  if temp.toNat < 105 ∨ die ≥ 2 ∨ sensor ≥ 64 ∨ s.power.thermTrip.getLsbD 31 then .next s
  else
    let word := 2 ^ 31 + die * 2 ^ 30 + sensor * 2 ^ 24 + temp.toNat
    let s := { s with power := { s.power with thermTrip := BitVec.ofNat 32 word }
                      chip := { s.chip with thermtripLow := true } }
    let s := s.alarm 0x0404 4 die (detail [(32, temp.toNat), (34, die), (35, sensor)]) false 0 7
    let s := s.each (s.log.staged.filter fun r => r.code = 0x0404) State.deliverAlarm
    .next (s.fence (s.alarmIndex 0x0404 4 die))

end Sys2Proof.Machine
end

