-- ==== Sys2Proof/Machine/Crossings.lean ====
section
/-! DEFINITION. Supply droop (R250, R251), the core reference (R41), steward heartbeats (R27, R28) and the exchange
crossings between regions (R278–R280, R283). -/

namespace Sys2Proof.Machine

/-! ### Droop (R250, R251) -/

/-- Some tile of the package lies between a release's arrival and its tc 0. -/
def State.anyExchange (s : State) : Bool :=
  s.tiles.any fun p => s.inExchange (BitVec.ofNat 12 p.1) false || s.inExchange (BitVec.ofNat 12 p.1) true

/-- COMPUTE_DROOP_TRIP: in force while no tile is in an exchange. -/
def execComputeDroopTrip (region : Nat) (s : State) : Res :=
  .next (if region < 16 ∧ ¬ s.anyExchange then s.modRegion region fun r => { r with droop := true } else s)

/-- COMPUTE_DROOP_END. -/
def execComputeDroopEnd (region : Nat) (s : State) : Res :=
  .next (if region < 16 then s.modRegion region fun r => { r with droop := false } else s)

/-- PACKAGE_DROOP_TRIP: in force while some tile is in an exchange; a trip during a stretch extends it. -/
def execPackageDroopTrip (s : State) : Res :=
  .next (if s.anyExchange then { s with power := { s.power with pkgDroop := true } } else s)

/-- PACKAGE_DROOP_END. -/
def execPackageDroopEnd (s : State) : Res := .next { s with power := { s.power with pkgDroop := false } }

/-! ### The reference and the stewards (R27, R28, R41) -/

/-- REFCLK_LOSS: a record, and the fence; the tile clocks stand still until host reset (R41). -/
def execRefclkLoss (s : State) : Res :=
  let idx := s.log.next.toNat
  let s := s.record 0x0402 1 4 0 false 0 7 0
  let s := { s with chip := { s.chip with refLost := true }
                    regions := (List.range 16).foldl (fun m g =>
                      SMap.put Region.reset m g { SMap.get Region.reset m g with refLock := false }) s.regions }
  .next (s.fence idx)

/-- STEWARD_HEARTBEAT: a steward that runs reports (R27). -/
def execStewardHeartbeat (region : Nat) (s : State) : Res :=
  .next (if region < 16 ∧ s.domainOn (144 + region) then s.modRegion region fun r => { r with stewardOk := true } else s)

/-- HEARTBEAT_TIMEOUT: three periods without a heartbeat; the steward is lost, and chip-level recovery resets its region
(R28, R457). No heartbeat is expected of a spine that is off (R390). -/
def execHeartbeatTimeout (region : Nat) (s : State) : Res :=
  if region < 16 ∧ s.domainOn (144 + region) ∧ (s.region region).stewardOk then
    let idx := s.log.next
    let s := s.modRegion region fun r => { r with stewardOk := false }
    let s := s.record 0x0308 1 3 region false 0 5 (detail [(32, region)])
    .next (s.escalateTo 2 3 (BitVec.ofNat 12 (256 * region)) false (some idx) none)
  else .next s

/-! ### Crossings (R278–R280) -/

/-- A tile of a region runs on the exchange clock. -/
def State.regionExchanging (s : State) (g : Nat) : Bool :=
  s.tiles.any fun p => decide (p.1 / 256 = g) &&
    (s.inExchange (BitVec.ofNat 12 p.1) false || s.inExchange (BitVec.ofNat 12 p.1) true)

/-- A signed wander in 1/64 xc, as a magnitude. -/
def wanderOf (w : BitVec 6) : Nat := w.toInt.natAbs

/-- DETAIL of XCAL_SLIP and XCAL_INVALID (R462). -/
def xcalDetail (src : Nat) (x : Crossing) : Nat := detail [(32, src), (33, x.depth.toNat), (34, x.wander.toNat)]

/-- A word on its way through a crossing: it comes from the source region, for tiles of the other (R268). -/
def TrackWord.crosses (w : TrackWord) (src region : Nat) : Bool :=
  decide (w.src = src) && w.rset.any fun t => decide (regionOf t = region)

/-- The words in flight through a crossing carry POISON (R280). -/
def State.poisonFlight (s : State) (src region : Nat) : State :=
  { s with tracks := s.tracks.map fun w => { w with poison := w.poison || w.crosses src region } }

/-- A crossing has slipped (R280): the words that it passes are poisoned from now on, those in flight included, until it is
calibrated afresh. One that has slipped already does so no second time. -/
def State.crossingSlips (s : State) (src region : Nat) (wander : BitVec 6) : State :=
  if ((s.region region).crossing src).slipped then s.modCrossing src region fun x => { x with wander := wander }
  else
    let s := s.modCrossing src region fun x =>
      { x with wander := wander, slipped := true, valid := false, recalPend := true }
    let s := s.modRegion region fun r => { r with slippedSticky := true, slipCount := satInc r.slipCount }
    let s := s.poisonFlight src region
    s.xcalRefresh.alarm 0x0305 2 region (xcalDetail src ((s.region region).crossing src))

/-- A drift of a crossing's write phase (R280): beyond 0.375 xc it slips, beyond a quarter of an xc re-centring is asked for. -/
def State.crossingDrifts (s : State) (src region : Nat) (wander : BitVec 6) : State :=
  if src < 16 ∧ region < 16 ∧ src ≠ region then
    if wanderOf wander > 24 then s.crossingSlips src region wander
    else s.modCrossing src region fun x =>
      { x with wander := wander, recalPend := x.recalPend || decide (wanderOf wander > 16) }
  else s

/-- CROSSING_DRIFT. -/
def execCrossingDrift (src region : Nat) (wander : BitVec 6) (s : State) : Res := .next (s.crossingDrifts src region wander)

/-- CROSSING_SLIP: a drift that is found beyond 0.375 xc; a smaller one is a drift only. -/
def execCrossingSlip (src region : Nat) (wander : BitVec 6) (s : State) : Res := .next (s.crossingDrifts src region wander)

/-- CROSSING_RECENTER: with no tile of either region on the exchange clock, the steward begins to re-centre or to calibrate
a crossing that waits for it, and releases in both regions are held; given again, it ends it with the depth measured (R279, R280).
A required depth outside 1 to 7, or a marker that does not confirm it, leaves the crossing without a calibration and is a
region-level error (R279). -/
def execCrossingRecenter (src region : Nat) (depth : BitVec 4) (confirmed : Bool) (s : State) : Res :=
  if src ≥ 16 ∨ region ≥ 16 ∨ src = region then .next s
  else
    let x := (s.region region).crossing src
    if x.busy then
      let good := confirmed && decide (1 ≤ depth.toNat) && decide (depth.toNat ≤ 7)
      let s := s.modCrossing src region fun x =>
        { x with busy := false, recalPend := false, slipped := false, valid := good, wander := 0, depth := depth.extractLsb' 0 3 }
      let s := s.xcalRefresh
      let s := if good then s else s.record 0x0306 1 2 region false 0 0 (xcalDetail src ((s.region region).crossing src))
      .next (s.each allZones State.checkBarrier)
    else if x.recalPend ∧ ¬ s.regionExchanging src ∧ ¬ s.regionExchanging region then
      .next (s.modCrossing src region fun x => { x with busy := true })
    else .next s

/-- XCAL_RECENTER_REQUEST: every inbound crossing of the region is to be re-centred (R280). -/
def execXcalRecenterRequest (region : Nat) (v : Word32) (s : State) : Res :=
  if region < 16 ∧ v.getLsbD 0 then
    .next (s.each ((List.range 16).filter fun o => o ≠ region) fun s o =>
      s.modCrossing o region fun x => { x with recalPend := true })
  else .next s

/-- XMON_CLEAR (R283). -/
def execXmonClear (region : Nat) (v : Word32) (s : State) : Res :=
  .next (if region < 16 ∧ v.getLsbD 31 then s.modRegion region fun r => { r with xmon := 0 } else s)

end Sys2Proof.Machine
end

