-- ==== Sys2Proof/Machine/Queues.lean ====
section
/-! DEFINITION. The host port: power states, the BAR2 window, doorbells, the command queues and their service (R408–R417), the
checks of R420 that every packet meets, and the commands of family 0x00 with EVENT_WAIT (R423, R424). -/

namespace Sys2Proof.Machine

/-! ### The layouts of the packets (R418, R420, R424) -/

/-- A parameter: offset from P, length in bytes, the bits that may be set, the values that are not reserved. -/
structure Param where
  off : Nat
  len : Nat
  mask : Nat
  ok : Nat → Bool

def pAny (off len : Nat) : Param := ⟨off, len, 2 ^ (8 * len) - 1, fun _ => true⟩
def pMask (off len mask : Nat) : Param := ⟨off, len, mask, fun _ => true⟩
def pIn (off len lo hi : Nat) : Param := ⟨off, len, 2 ^ (8 * len) - 1, fun v => decide (lo ≤ v) && decide (v ≤ hi)⟩

/-- An opcode's layout: the lowest major that offers it, its parameters, and its expert parameters. -/
structure OpSpec where
  major : Nat
  params : List Param
  expert : List Param

/-- A zone, a context, a context or either, an ASID at an offset. -/
def pZone (off : Nat) : Param := pIn off 1 0 7
def pCtx (off : Nat) : Param := pIn off 1 0 1

/-- The entries of a HINT (R395). -/
def hintParams (count : Nat) : List Param :=
  (List.range (min 5 count)).flatMap fun i =>
    [pAny (8 + 8 * i) 1, ⟨9 + 8 * i, 1, 0x7F, fun v => decide (v / 16 ≠ 7)⟩, pAny (12 + 8 * i) 3]

/-- The opcode tables of R424. `p` is the packet, `major` the negotiated major. -/
def opSpec (op major : Nat) (p : BitVec 512) : Option OpSpec :=
  match op with
  | 0x0001 => some ⟨1, [], []⟩
  | 0x0002 => some ⟨1, [pAny 0 1], []⟩
  | 0x0003 => some ⟨1, [pAny 0 2, pIn 2 2 1 32768, pAny 4 4], []⟩
  | 0x0004 => some ⟨1, [pIn 0 1 1 63, pIn 2 2 2 4096, pIn 4 2 2 4096, pIn 6 2 0 2047, pMask 8 8 0xFFFFFFFFFFFFF000,
      pMask 16 8 0xFFFFFFFFFFFFF000, pAny 24 1, pAny 26 2], []⟩
  | 0x0005 => some ⟨1, [pIn 0 1 1 63], []⟩
  | 0x0101 => some ⟨1, [pMask 8 8 0xFFFFFFFFFFFF8000, pAny 16 8], []⟩
  | 0x0102 => some ⟨1, [pIn 0 2 0 4095, pIn 2 1 0 2, pMask 3 1 7, pAny 8 8, pAny 16 8, pAny 24 8], []⟩
  | 0x0103 => some ⟨1, [pIn 0 2 0 4095, pAny 8 8, pAny 24 8], []⟩
  | 0x0104 => some ⟨1, [pIn 0 2 0 4095, pAny 8 8], []⟩
  | 0x0105 => some ⟨1, [pMask 0 1 3, pAny 8 8, pAny 16 8, pAny 24 8], []⟩
  | 0x0106 => some ⟨1, [pAny 8 8, pAny 16 8, pAny 24 8], []⟩
  | 0x0107 => some ⟨2, [pAny 0 2, pCtx 2, pAny 4 4], []⟩
  | 0x0201 | 0x0202 => some ⟨1, [pMask 0 1 1, pIn 1 1 0 2, pIn 2 2 0 4095, pAny 8 8, pAny 16 8], []⟩
  | 0x0203 => some ⟨1, [pZone 0, pAny 16 32] ++ (if major ≥ 2 then [pMask 1 1 1, pZone 2] else []), [pAny 4 4]⟩
  | 0x0204 => some ⟨1, [pZone 0, pMask 1 1 3], []⟩
  | 0x0205 => some ⟨2, [pZone 0, pMask 1 1 2], []⟩
  | 0x0206 => some ⟨2, [pZone 0, pMask 1 1 2, pAny 8 8, pAny 16 8], []⟩
  | 0x0207 => some ⟨2, [pIn 0 1 0 2, pAny 8 8], []⟩
  | 0x0208 => some ⟨1, [pZone 0], []⟩
  | 0x0209 => some ⟨2, [pZone 0], []⟩
  | 0x020A => some ⟨2, [pIn 0 1 0 8, ⟨1, 1, 0xFF, fun v => decide (v = 0) || (decide (2 ≤ v) && decide (v ≤ 64))⟩, pAny 8 8], []⟩
  | 0x0301 => some ⟨2, [pZone 0, pZone 1], [pAny 4 4]⟩
  | 0x0302 => some ⟨2, [pZone 0], []⟩
  | 0x0303 => some ⟨1, [pZone 0, pAny 2 2, pIn 4 2 0 32767], []⟩
  | 0x0304 | 0x0305 => some ⟨1, [pZone 0], []⟩
  | 0x0306 => some ⟨2, [pZone 0], []⟩
  | 0x0401 => some ⟨1, [pAny 0 2], []⟩
  | 0x0402 => some ⟨2, [pIn 0 1 1 5] ++ hintParams (cmdField p 16 1), []⟩
  | 0x0403 => some ⟨2, [pIn 0 1 0 206, pIn 1 1 0 1], []⟩
  | 0x0501 => some ⟨1, [], []⟩
  | 0x0502 => some ⟨1, [pIn 0 1 0 2, pZone 1, pAny 8 8, pAny 16 4], []⟩
  | 0x0601 => some ⟨1, [], []⟩
  | 0x0602 => some ⟨1, [pAny 8 8, pAny 16 4, pAny 20 4], []⟩
  | 0x0603 => some ⟨1, [pAny 0 4], []⟩
  | 0x0604 => some ⟨2, [pAny 0 2], []⟩
  | 0x0701 | 0x0702 => some ⟨1, [pIn 0 1 0 4, pAny 2 2, pCtx 4], []⟩
  | 0x0703 => some ⟨1, [pAny 2 2, pCtx 4, pAny 8 4], []⟩
  | 0x0704 | 0x0705 => some ⟨1, [pIn 0 1 0 2, pAny 2 2, pCtx 4, pAny 8 8, pAny 16 8, pAny 24 4], []⟩
  | 0x0706 => some ⟨1, [pAny 2 2, pCtx 4, pIn 5 1 0 8, pAny 8 8], []⟩
  | 0x0707 => some ⟨1, [pIn 0 1 0 2, pAny 2 2, pAny 4 4, pAny 8 8], []⟩
  | 0x0708 => some ⟨1, [pAny 2 2, pIn 4 1 0 5, pMask 5 1 7, pAny 8 8], []⟩
  | 0x0801 => some ⟨1, [pAny 0 4], []⟩
  | 0x0802 => some ⟨1, [pAny 0 4, pAny 4 4], []⟩
  | _ => none

/-- The offending bytes of a parameter. -/
def Param.bad (f : Param) (p : BitVec 512) : List Nat :=
  let v := cmdField p (16 + f.off) f.len
  let bytes := (List.range f.len).filter fun i => bits v (8 * i) 8 &&& (255 - bits f.mask (8 * i) 8) ≠ 0
  bytes.map (fun i => 16 + f.off + i) ++ (if f.ok v then [] else [16 + f.off])

/-- The first offending byte of a packet under check 4 of R420. -/
def fieldError (sp : OpSpec) (p : BitVec 512) : Option Nat :=
  let expert := p.getLsbD 26
  let all := sp.params ++ sp.expert
  let covered (i : Nat) : Bool := all.any fun f => decide (f.off ≤ i) && decide (i < f.off + f.len)
  let hdr := (if cmdField p 3 1 ≥ 8 then [3] else []) ++ ([12, 13, 14, 15].filter fun i => cmdField p i 1 ≠ 0)
  let gaps := ((List.range 48).filter fun i => !covered i && decide (cmdField p (16 + i) 1 ≠ 0)).map (16 + ·)
  let early := if expert then sp.expert.flatMap (·.bad p)
               else sp.expert.flatMap fun f =>
                 ((List.range f.len).filter fun i => cmdField p (16 + f.off + i) 1 ≠ 0).map (16 + f.off + ·)
  (hdr ++ gaps ++ early ++ sp.params.flatMap (·.bad p)).foldl (fun m i => some (match m with
    | some k => min k i
    | none => i)) none

/-- Checks 1 to 4 of R420 on a packet of queue q: the status and DETAIL of the first that fails. -/
def State.packetError (s : State) (q : Nat) (p : BitVec 512) : Option (Nat × Nat) :=
  let op := cmdField p 0 2
  let major := s.host.major.toNat
  if cmdField p 2 1 ≠ major ∨ (¬ s.host.negotiated ∧ op / 256 ≠ 0 ∧ op ≠ 0x0801) then some (stVersion, major)
  else match opSpec op major p with
    | none => some (stOpcode, 0)
    | some sp =>
      if sp.major > major then some (stOpcode, 0)
      else if 2 ≤ op ∧ op ≤ 5 ∧ q ≠ 0 then some (stQueue, 0)
      else (fieldError sp p).map fun i => (stField, i)

/-! ### Service of the queues (R413–R417) -/

/-- A queue enters ERROR (R416). -/
def State.queueError (s : State) (q : Nat) (cause : BitVec 3) : State :=
  if (s.queue q).state = .active then s.modQueue q fun r => { r with state := .error, cause := cause } else s

/-- SQ_TAIL_DOORBELL (R413, R416). -/
def execSqTailDoorbell (q : Nat) (v : Word32) (s : State) : Res :=
  let r := s.queue q
  if r.state = .none then .next s
  else if v.toNat ≥ r.sqSize then .next (s.queueError q 1)
  else .next (s.modQueue q fun r => { r with sqTail := v.toNat })

/-- CQ_HEAD_DOORBELL (R413, R416). -/
def execCqHeadDoorbell (q : Nat) (v : Word32) (s : State) : Res :=
  let r := s.queue q
  if r.state = .none then .next s
  else if v.toNat ≥ r.cqSize then .next (s.queueError q 2)
  else
    let n := (v.toNat + r.cqSize - r.cqHead) % r.cqSize
    let n := if n = 0 ∧ r.cqUsed = r.cqSize then r.cqSize else n
    if n > r.cqUsed then .next (s.queueError q 2)
    else .next (s.modQueue q fun r => { r with cqHead := v.toNat, cqUsed := r.cqUsed - n })

/-- A queue has a command to fetch and an entry to reserve for its reply (R414). -/
def State.canFetch (s : State) (q : Nat) : Bool :=
  let r := s.queue q
  decide (r.state = .active) && decide (r.sqHead ≠ r.sqTail) && decide (r.started.length + r.cqUsed < r.cqSize)

/-- The management processor's fetch is under way. -/
def State.fetching (s : State) : Bool := s.memory.reqs.any fun r => decide (r.kind = 9)

/-- The turn of service is at queue q: no queue before it in the turn can be served (R414). -/
def State.turnAt (s : State) (q : Nat) : Bool :=
  let ahead := (q + 64 - s.host.turn) % 64
  (List.range ahead).all fun i => !s.canFetch ((s.host.turn + i) % 64)

/-- The outcome of a fetch: a command that FENCE keeps back waits in its ring; one that fails checks 1 to 4 draws its reply. A queue that
has stopped fetching meanwhile starts nothing (R416, R417). -/
def State.fetched (s : State) (q : Nat) (p : BitVec 512) : State :=
  if (s.queue q).state ≠ .active ∨ (p.getLsbD 24 ∧ (s.queue q).started ≠ []) then s
  else
    let seq := BitVec.ofNat 32 (cmdField p 4 4)
    let op := BitVec.ofNat 16 (cmdField p 0 2)
    let s := s.modQueue q fun r =>
      { r with sqHead := if r.sqHead + 1 ≥ r.sqSize then 0 else r.sqHead + 1
               started := r.started ++ [{ seq := seq, opcode := op, packet := p, run := false }] }
    match s.packetError q p with
    | some e => s.queueReply ⟨q, seq, p.getLsbD 25, p.getLsbD 26, 0⟩ op e.1 e.2 0
    | none => s

/-- COMMAND_FETCH: the management processor reads the command of the queue whose turn it is from its ring; the completion of the read
brings it (R408, R414, R416, R420). A domain request that an earlier command left to be granted is granted first (R389). -/
def execCommandFetch (q : Nat) (s : State) : Res :=
  if q < 64 ∧ s.host.ready ∧ s.host.power = .d0 ∧ ¬ s.busHeld ∧ s.idleMgmt ∧ ¬ s.fetching ∧ s.canFetch q ∧ s.turnAt q then
    let s := s.domSettle
    let r : MemReq :=
      { txid := s.memory.nextTx, dev := none, tile := 0, ctx := false, slot := 0, kind := 9, gran := q, batch := 0, origin := none,
        issued := s.time }
    .next ({ s with host := { s.host with turn := (q + 1) % 64 }
                    memory := { s.memory with nextTx := r.txid + 1, reqs := s.memory.reqs ++ [r] } }.emit
      (.read r.txid ((s.queue q).sqBase.toNat + 64 * (s.queue q).sqHead) 64))
  else .next s

/-- COALESCE_TIMEOUT: the coalescing time has passed since the first unsignalled reply (R415). -/
def execCoalesceTimeout (q : Nat) (s : State) : Res :=
  let r := s.queue q
  if r.state = .none ∨ r.coTime = 0 ∨ r.sinceSignal = 0 then .next s
  else .next ((s.modQueue q fun r => { r with sinceSignal := 0, firstSince := none }).signalVector r.vector)

/-- A request whose command has timed out stays latched; its command has replied (R422). -/
def ZoneReq.expire (r : ZoneReq) (q : Nat) (seq : BitVec 32) : ZoneReq :=
  if r.queue = q ∧ r.seq = seq then { r with deadline := none } else r

/-- COMMAND_TIMEOUT (R422): UNPAIR and EVENT_WAIT, or a latched YIELD, STOP or EVICT. -/
def execCommandTimeout (q : Nat) (seq : BitVec 32) (s : State) : Res :=
  match s.host.waits.find? fun w => decide (w.hdr.queue = q) && decide (w.hdr.seq = seq) && w.deadline.isSome with
  | some w => .next ((s.unwait w).fail w.hdr w.opcode stTimeout)
  | none =>
    let mine (r : ZoneReq) : Bool := decide (r.queue = q) && decide (r.seq = seq) && r.deadline.isSome
    match allZones.find? fun z => (s.zone z).reqs.any mine || (s.zone z).evictWait.any mine with
    | none => .next s
    | some z =>
      let zn := s.zone z
      let op : BitVec 16 := match (zn.reqs ++ zn.evictWait.toList).find? mine with
        | some { kind := .stop, .. } => 0x0204
        | some { kind := .yield, .. } => 0x0205
        | _ => 0x0206
      let s := s.modZone z fun x =>
        { x with reqs := x.reqs.map fun r => r.expire q seq, evictWait := x.evictWait.map fun r => r.expire q seq }
      .next (s.fail ⟨q, seq, false, false, 0⟩ op stTimeout)

/-- The EVENT_WAITs of a queue reply ABORTED (R427). -/
def State.abortEventWaits (s : State) (q : Nat) : State :=
  s.each (s.host.waits.filter fun w => w.kind = .event && decide (w.hdr.queue = q)) fun s w =>
    (s.unwait w).fail w.hdr w.opcode stAborted

/-- Stop fetching from a queue; it ends when its started commands have replied (R417). -/
def State.deleteQueue (s : State) (q : Nat) : State :=
  if (s.queue q).state = .none then s
  else ((s.modQueue q fun r => { r with state := .deleting }).abortEventWaits q).queueEnds q

/-- A write of CMDQ_ADMIN_CTL (R412, R417): EN creates queue 0 from the admin registers, or deletes it. -/
def State.writeAdminCtl (s : State) (v : Word32) : State :=
  let en := v.getLsbD 31
  if en && !s.host.adminEn && decide ((s.queue 0).state = .none) then
    let z := s.host.adminSize.toNat
    let sq := bits z 0 13
    let cq := bits z 16 13
    let good := decide (2 ≤ sq) && decide (sq ≤ 4096) && decide (2 ≤ cq) && decide (cq ≤ 4096)
    let a := s.host.adminVec.toNat
    let r : CmdQueue :=
      { CmdQueue.reset with state := if good then .active else .error, cause := if good then 0 else 1
                            sqSize := sq, cqSize := cq, sqBase := s.host.adminSq, cqBase := s.host.adminCq
                            vector := bits a 0 11, coCount := bits a 24 8, coTime := bits a 11 13 }
    { s with host := { s.host with adminEn := true } }.modQueue 0 fun _ => r
  else if !en && s.host.adminEn then { s with host := { s.host with adminEn := false } }.deleteQueue 0
  else s

/-- ADMIN_QUEUE_ENABLE. -/
def execAdminQueueEnable (v : Word32) (s : State) : Res := .next (if s.host.ready then s.writeAdminCtl v else s)

/-! ### BAR2, bad accesses and power states (R12, R343, R408, R410) -/

def State.countHostErr (s : State) (bar2 : Bool) : State :=
  let e := s.log.hostErr
  let lo : BitVec 16 := e.extractLsb' 0 16
  let hi : BitVec 16 := e.extractLsb' 16 16
  let v : Word32 := if bar2 then hi ++ satInc lo else satInc hi ++ lo
  { s with log := { s.log with hostErr := v } }

/-- The local address of a BAR2 offset. -/
def State.bar2Addr (s : State) (off : Nat) : Nat := s.host.bar2Base.toNat + off

/-- An access lies in BAR2; outside it the function claims none (R409). -/
def State.inBar2 (s : State) (off len : Nat) : Bool := decide (off + len ≤ 2 ^ (30 + s.host.bar2Log))

/-- BAR2_READ (R343, R345, R410). -/
def execBar2Read (off len : Nat) (s : State) : Res :=
  if s.inBar2 off len = false then .next s
  else if ¬ s.host.ready ∨ ¬ s.inPackage (s.bar2Addr off) len then .next ((s.countHostErr true).emit .unsupported)
  else
    let asleep := s.rangeAsleep (s.globalAddr (s.bar2Addr off)) len
    let refused := asleep.any fun m => s.domReqOff (hbmDomain m)
    if refused then .next (s.emit .unsupported)
    else if asleep ≠ [] then .next (s.each asleep fun s m => s.switchOn (hbmDomain m))
    else
      let r := s.pkgRead (s.bar2Addr off) len 2
      .next (r.1.emit (.completion r.2.1 r.2.2.isSome))

/-- BAR2_WRITE (R343, R344, R410). One to a stack that is held off is refused (REMOTE, R390), which a posted write shows to no one; the
counter of refused accesses counts it (assumption 91). -/
def execBar2Write (off : Nat) (data : List Byte) (poison : Bool) (s : State) : Res :=
  if s.inBar2 off data.length = false then .next s
  else if ¬ s.host.ready ∨ ¬ s.inPackage (s.bar2Addr off) data.length then .next (s.countHostErr true)
  else
    let asleep := s.rangeAsleep (s.globalAddr (s.bar2Addr off)) data.length
    if asleep.any fun m => s.domReqOff (hbmDomain m) then .next (s.countHostErr true)
    else if asleep ≠ [] then .next (s.each asleep fun s m => s.switchOn (hbmDomain m))
    else .next (s.pkgWrite (s.bar2Addr off) data fun _ => poison)

/-- BAR0_BAD_ACCESS (R12). -/
def execBar0BadAccess (s : State) : Res := .next ((s.countHostErr false).emit .unsupported)

/-- HOST_POWER_STATE (R388, R408): back in D0, held outputs leave and waiting copies start; in L2 the host port's domain is
off. -/
def execHostPowerState (p : HostPower) (s : State) : Res :=
  let off := s.power.domOff.filter fun d => d ≠ 206
  let s := { s with host := { s.host with power := p }
                    power := { s.power with domOff := if p = .l2 then off ++ [206] else off } }
  match p with
  | .d0 =>
    let s := { s with host := { s.host with out := s.host.out ++ s.host.held, held := [] } }
    .next s.pumpCopies
  | _ => .next s

/-! ### Family 0x00 and EVENT_WAIT (R423, R424, R463) -/

/-- The device mask of majors. -/
def majorMask : Nat := 0x06

/-- Clusters with SECOND_FAIL. -/
def State.secondFails (s : State) : Nat := (s.clusters.filter fun c => c.2.secondFail).length

/-- IDENTIFY. -/
def execIdentify (h : CmdHdr) (s : State) : Res :=
  .next (s.onCmd h 0x0001 [] fun s =>
    s.ok h 0x0001 (packAt 0 [(0, bits s.chip.fwVer.toNat 24 8), (1, bits s.chip.fwVer.toNat 16 8), (2, b2n s.fuses.grade288),
      (3, s.fuses.stepping.toNat), (4, s.fabric.devId.toNat + 32768 * b2n s.fabric.devValid), (6, s.activeTiles),
      (8, s.capacity / 2 ^ 30), (10, majorMask), (11, s.host.major.toNat), (12, s.secondFails)]))

/-- NEGOTIATE (R423). -/
def execNegotiate (h : CmdHdr) (mask : BitVec 8) (s : State) : Res :=
  .next (s.onCmd h 0x0002 [(0, 1, mask.toNat)] fun s =>
    if s.host.queues.any fun q => decide (q.1 ≠ 0) && decide (q.2.state ≠ .none) then s.fail h 0x0002 stState
    else
      let m : Nat := if mask.getLsbD 2 then 2 else if mask.getLsbD 1 then 1 else 0
      if m = 0 then s.fail h 0x0002 stVersion s.host.major.toNat
      else { s with host := { s.host with major := BitVec.ofNat 4 m, negotiated := true } }.ok h 0x0002
        (packAt 0 [(0, m), (1, majorMask)]))

/-- SET_CONFIG (R358, R424). -/
def execSetConfig (h : CmdHdr) (dev size : BitVec 16) (zoneMap : BitVec 32) (s : State) : Res :=
  .next (s.onCmd h 0x0003 [(0, 2, dev.toNat), (2, 2, size.toNat), (4, 4, zoneMap.toNat)] fun s =>
    let loaded := s.anyLoaded
    if (dev.getLsbD 15 && s.fabric.devValid) || (loaded && (decide (size ≠ s.host.sysSize) || decide (zoneMap ≠ s.host.zoneMap))) then
      s.fail h 0x0003 stState
    else
      let s := { s with host := { s.host with sysSize := size, zoneMap := zoneMap } }
      let s := if dev.getLsbD 15 then s.setDevId (dev.extractLsb' 0 15) else s
      s.ok h 0x0003 s.fabric.devId.toNat)

/-- QUEUE_CREATE (R412). -/
def execQueueCreate (h : CmdHdr) (p : QueueParams) (s : State) : Res :=
  .next (s.onCmd h 0x0004 [(0, 1, p.queue), (2, 2, p.sqEntries), (4, 2, p.cqEntries), (6, 2, p.vector), (8, 8, p.sqBase.toNat),
      (16, 8, p.cqBase.toNat), (24, 1, p.coCount), (26, 2, p.coTime)] fun s =>
    if (s.queue p.queue).state ≠ .none then s.fail h 0x0004 stState p.queue
    else
      let r : CmdQueue :=
        { CmdQueue.reset with state := .active, sqSize := p.sqEntries, cqSize := p.cqEntries, sqBase := p.sqBase,
                              cqBase := p.cqBase, vector := p.vector, coCount := p.coCount, coTime := p.coTime }
      (s.modQueue p.queue fun _ => r).ok h 0x0004)

/-- QUEUE_DELETE (R417, R427). -/
def execQueueDelete (h : CmdHdr) (q : Nat) (s : State) : Res :=
  .next (s.onCmd h 0x0005 [(0, 1, q)] fun s =>
    let st := (s.queue q).state
    if st = .none ∨ st = .deleting then s.fail h 0x0005 stState q
    else (s.wait h 0x0005 (.queueDelete q)).deleteQueue q)

/-- EVENT_WAIT (R422, R424, R463). -/
def execEventWait (h : CmdHdr) (s : State) : Res :=
  .next (s.onCmd h 0x0601 [] fun s =>
    if (s.host.waits.filter fun w => w.kind = .event).length ≥ 16 then s.fail h 0x0601 stState
    else
      let deadline := if h.timeoutMs = 0 then none else some (s.time + BitVec.ofNat 64 (100000 * h.timeoutMs.toNat))
      (s.wait h 0x0601 .event deadline).pumpEvent)

end Sys2Proof.Machine
end

