-- ==== Sys2Proof/Machine/HostMem.lean ====
section
/-! DEFINITION. The host commands over page tables (R326–R331, R424), RESUME (R333), and the power, telemetry and log families
(R389, R392, R395, R424, R463–R466). -/

namespace Sys2Proof.Machine

/-- The domains of the stacks that a local range needs. -/
def State.needRange (s : State) (a n : Nat) : List Nat := (s.rangeAsleep (s.globalAddr a) n).map hbmDomain

/-- The domains of the stacks that hold the table pool. -/
def State.needPool (s : State) : List Nat := s.needRange s.host.poolBase s.host.poolLen

/-! ### Tables (R326–R328) -/

/-- A root register's two words (REGION_XLAT_ROOT). -/
def Region.setRoot (r : Region) (a : Nat) (en : Bool) : Region :=
  { r with xlatRootLo := BitVec.ofNat 32 (bits a 15 17 * 32768 + b2n en), xlatRootHi := BitVec.ofNat 32 (bits a 32 9) }

/-- TABLE_POOL (R424). -/
def execTablePool (h : CmdHdr) (base len : Nat) (s : State) : Res :=
  .next (s.onCmdNeeds h 0x0101 [(8, 8, base), (16, 8, len)] (s.needRange base (min len 32768)) fun s =>
    if s.memory.intlvBusy then s.fail h 0x0101 stMemBusy
    else if s.anyLoaded then s.fail h 0x0101 stState
    else if ¬ s.inPackage base len then s.fail h 0x0101 stBadAddr
    else if len < 32768 then s.fail h 0x0101 stNoSpace 32768
    else
      let s := s.pkgWrite base (List.replicate 32768 0) fun _ => false
      let s := { s with host := { s.host with poolBase := base, poolLen := len, poolUsed := 32768 } }
      let s := s.each (List.range 16) fun s g => s.modRegion g fun r => r.setRoot base true
      s.ok h 0x0101 base)

/-- Write an 8-byte table entry. -/
def State.putEntry (s : State) (a : Nat) (e : Nat) : State := s.pkgWrite a (leBytes 8 e) fun _ => false

/-- Read an 8-byte table entry; a poisoned one reads as valid and broken. -/
def State.getEntry (s : State) (a : Nat) : Word := match s.walkRead a with
  | (_, some e) => e
  | (_, none) => BitVec.allOnes 64

/-- Take a zeroed table of a level from the pool; the limit of the pool is checked at the end of the command. -/
def State.newTable (s : State) (l : Nat) : State × Nat :=
  let size := if l = 0 then 256 else 4096
  let at' := ceilDiv s.host.poolUsed size * size
  let a := s.host.poolBase + at'
  let s := s.pkgWrite a (List.replicate size 0) fun _ => false
  ({ s with host := { s.host with poolUsed := at' + size } }, a)

/-- Enter one page from the table at `tab` of level l down to its leaf level; none where the range holds a valid entry. -/
def State.mapPage (s : State) (leaf : Nat) (va : Nat) (e : Nat) : Nat → Nat → Option State
  | l, tab =>
    let a := tab + 8 * levelIndex l va
    let old := s.getEntry a
    if l = leaf then (if old.getLsbD 0 then none else some (s.putEntry a e))
    else match l with
      | 0 => none
      | l + 1 =>
        if old.getLsbD 0 then (if pteLeaf old then none else State.mapPage s leaf va e l (bits old.toNat 8 33 * 256))
        else
          let r := s.newTable l
          State.mapPage (r.1.putEntry a (r.2 + 1)) leaf va e l r.2
termination_by structural l => l

/-- Enter one page from the root table. -/
def State.mapVa (s : State) (asid : Nat) (leaf : Nat) (va e : Nat) : Option State :=
  let a := s.host.poolBase + 8 * asid
  let old := s.getEntry a
  if old.getLsbD 0 then s.mapPage leaf va e 4 (bits old.toNat 12 29 * 4096)
  else
    let r := s.newTable 4
    (r.1.putEntry a (r.2 + 1)).mapPage leaf va e 4 r.2

/-- A leaf entry (R327). -/
def leafEntry (pa perm : Nat) : Nat := pa + 3 + 4 * bits perm 0 2 + 32 * bits perm 2 1

/-- The page size of a code of MAP: 64 KiB, 2 MiB, 1 GiB. -/
def pageSize (code : Nat) : Nat := 2 ^ levelShift code

/-- MAP (R424). -/
def execMap (h : CmdHdr) (p : MapParams) (s : State) : Res :=
  let size := pageSize p.psize.toNat
  .next (s.onCmdNeeds h 0x0102 [(0, 2, p.asid.toNat), (2, 1, p.psize.toNat), (3, 1, p.perm.toNat), (8, 8, p.va), (16, 8, p.pa),
      (24, 8, p.len)] s.needPool fun s =>
    if s.memory.intlvBusy then s.fail h 0x0102 stMemBusy
    else if p.va % size ≠ 0 ∨ p.va + p.len > 2 ^ 57 then s.fail h 0x0102 stField 24
    else if p.pa % size ≠ 0 ∨ p.pa + p.len > 2 ^ 56 then s.fail h 0x0102 stField 32
    else if p.len % size ≠ 0 then s.fail h 0x0102 stField 40
    else if s.host.poolLen = 0 then s.fail h 0x0102 stNoSpace 32768
    else
      let n := p.len / size
      let r := (List.range n).foldl (fun (acc : Option State) i =>
        acc.bind fun s => s.mapVa p.asid.toNat p.psize.toNat (p.va + i * size) (leafEntry (p.pa + i * size) p.perm.toNat))
        (some s)
      match r with
      | none => s.fail h 0x0102 stState
      | some t =>
        if t.host.poolUsed > s.host.poolLen then s.fail h 0x0102 stNoSpace (t.host.poolUsed - s.host.poolUsed)
        else t.ok h 0x0102 n)

/-- The leaf that covers an address: its level and the address of its entry. -/
def State.findLeaf (s : State) (va : Nat) : Nat → Nat → Option (Nat × Nat)
  | l, tab =>
    let a := tab + 8 * levelIndex l va
    let e := s.getEntry a
    if !e.getLsbD 0 then none
    else if pteLeaf e then some (l, a)
    else match l with
      | 0 => none
      | l + 1 => State.findLeaf s va l (bits e.toNat 8 33 * 256)
termination_by structural l => l

def State.leafOf (s : State) (asid va : Nat) : Option (Nat × Nat) :=
  let e := s.getEntry (s.host.poolBase + 8 * asid)
  if e.getLsbD 0 then s.findLeaf va 4 (bits e.toNat 12 29 * 4096) else none

/-- Remove the leaves of a range, 64 KiB at a time; none where a leaf reaches beyond it. The count is of pages. -/
def State.unmapFrom (s : State) (asid lo hi : Nat) : List Nat → Nat → Option (State × Nat)
  | [], n => some (s, n)
  | va :: rest, n =>
    match s.leafOf asid va with
    | none => State.unmapFrom s asid lo hi rest n
    | some (l, a) =>
      let size := pageSize l
      let base := va / size * size
      if base < lo ∨ base + size > hi then none
      else State.unmapFrom (s.putEntry a 0) asid lo hi rest (n + 1)

/-- UNMAP (R331, R424): every region is asked to invalidate, and the reply waits for them. -/
def execUnmap (h : CmdHdr) (asid : BitVec 16) (va len : Nat) (s : State) : Res :=
  .next (s.onCmdNeeds h 0x0103 [(0, 2, asid.toNat), (8, 8, va), (24, 8, len)] s.needPool fun s =>
    if s.memory.intlvBusy then s.fail h 0x0103 stMemBusy
    else if va % 65536 ≠ 0 ∨ va + len > 2 ^ 57 then s.fail h 0x0103 stField 24
    else if len % 65536 ≠ 0 then s.fail h 0x0103 stField 40
    else match s.unmapFrom asid.toNat va (va + len) ((List.range (len / 65536)).map fun i => va + 65536 * i) 0 with
      | none => s.fail h 0x0103 stState
      | some (t, n) =>
        let t := t.each (List.range 16) fun s g => s.invalidate g 0 0 0
        t.wait h 0x0103 (.unmap n))

/-- TRANSLATE (R424): the walk of region 0's root, past its caches. -/
def execTranslate (h : CmdHdr) (asid : BitVec 16) (va : Nat) (s : State) : Res :=
  .next (s.onCmdNeeds h 0x0104 [(0, 2, asid.toNat), (8, 8, va)] s.needPool fun s =>
    if s.memory.intlvBusy then s.fail h 0x0104 stMemBusy
    else
      let a : BitVec 12 := asid.extractLsb' 0 12
      let bare := s.modRegion 0 fun r => { r with xlatCache := [] }
      match bare.lookup 0 a va with
      | (t, .page p r w) =>
        let l := if p.size = 2 ^ 16 then 0 else if p.size = 2 ^ 21 then 1 else 2
        let g := match (t.region 0).cached a l va true with
          | some e => pteGlobal e.2.2.2
          | none => false
        s.ok h 0x0104 (packAt 0 [(0, p.pa + (va - p.va)), (8, l), (9, b2n r + 2 * b2n w + 4 * b2n g)])
      | (_, .fault c l _) => s.ok h 0x0104 (packAt 0 [(10, c), (11, l)])
      | (_, .wait) => s.fail h 0x0104 stState)

/-- RESUME (R333). -/
def execResume (h : CmdHdr) (tile : BitVec 16) (ctx : Bool) (mask : BitVec 32) (s : State) : Res :=
  .next (s.onCmd h 0x0107 [(0, 2, tile.toNat), (2, 1, b2n ctx), (4, 4, mask.toNat)] fun s =>
    let t : TileId := tile.extractLsb' 0 12
    if tile.toNat ≥ 4096 ∨ ¬ s.validTile t then s.fail h 0x0107 stBadTile tile.toNat
    else (s.resumeSlots t ctx mask.toNat).ok h 0x0107)

/-! ### Families 0x04 and 0x05 -/

/-- CAP (R392). -/
def execCap (h : CmdHdr) (watts : BitVec 16) (s : State) : Res :=
  .next (s.onCmd h 0x0401 [(0, 2, watts.toNat)] fun s =>
    let w := min 2200 (max 1000 watts.toNat)
    { s with power := { s.power with cap := BitVec.ofNat 12 w } }.ok h 0x0401 w)

/-- One entry of a HINT (R395). -/
def State.hintEntry (s : State) (e : Word) : State :=
  let v := e.toNat
  let cls := bits v 12 3
  let dur := bits v 32 24
  s.modPhaseRec (256 * bits v 8 3 + bits v 0 8) fun r =>
    let r := if v.testBit 11 then PhaseRec.reset else r
    let r := if cls = 0 then r else { r with cls := BitVec.ofNat 3 cls }
    if dur = 0 ∨ r.n ≠ 0 then r else { r with dur := BitVec.ofNat 24 dur }

/-- HINT (R395). -/
def execHint (h : CmdHdr) (entries : List Word) (s : State) : Res :=
  .next (s.onCmd h 0x0402 ((0, 1, entries.length) :: (numbered 0 entries).map fun e => (8 + 8 * e.1, 8, e.2.toNat)) fun s =>
    (s.each entries State.hintEntry).ok h 0x0402)

/-- DOMAIN (R389): a request to switch on replies when the domain is on. -/
def execDomain (h : CmdHdr) (dom : Nat) (off : Bool) (s : State) : Res :=
  .next (s.onCmd h 0x0403 [(0, 1, dom), (1, 1, b2n off)] fun s =>
    match s.askDomain dom off with
    | (s, false) => s.fail h 0x0403 stState dom
    | (s, true) =>
      if !off && !s.domainOn dom && s.power.domPending.contains dom then s.wait h 0x0403 (.domain dom)
      else s.ok h 0x0403 (b2n (s.domainOn dom)))

/-- PWR_STATUS. -/
def State.pwrStatus (s : State) : Nat :=
  b2n s.power.excess * 2 ^ 31 + b2n (decide ((s.dieTherm 0).cap.toNat < 42)) * 2 ^ 30 +
  b2n (decide ((s.dieTherm 1).cap.toNat < 42)) * 2 ^ 29 + b2n s.power.hbmThr * 2 ^ 28 + b2n s.power.ready * 2 ^ 27 +
  s.power.draw.toNat

/-- SAMPLE (R424). -/
def execSample (h : CmdHdr) (s : State) : Res :=
  .next (s.onCmd h 0x0501 [] fun s =>
    s.ok h 0x0501 (packAt 0 [(0, s.power.energy.toNat), (8, s.power.draw.toNat), (10, (s.dieTherm 0).maxT.toNat),
      (11, (s.dieTherm 1).maxT.toNat), (12, (s.dieTherm 0).cap.toNat), (13, (s.dieTherm 1).cap.toNat),
      (14, s.pwrStatus / 2 ^ 27)]))

/-! ### Family 0x06 (R35, R424, R463, R466) -/

/-- Insert a record by INDEX. -/
def insertRecord (r : Record) : List Record → List Record
  | [] => [r]
  | a :: l => if r.index.toNat ≤ a.index.toNat then r :: a :: l else a :: insertRecord r l

/-- The log's records in INDEX order. -/
def Log.ordered (l : Log) : List Record := (l.errs ++ l.alarms).foldl (fun acc r => insertRecord r acc) []

/-- LOG_READ (R424, R461). -/
def execLogRead (h : CmdHdr) (buf len : Nat) (idx : BitVec 32) (s : State) : Res :=
  .next (s.onCmd h 0x0602 [(8, 8, buf), (16, 4, len), (20, 4, idx.toNat)] fun s =>
    let l := (s.log.ordered.filter fun r => decide (idx.toNat ≤ r.index.toNat)).take (len / 64)
    let next := match l.getLast? with
      | some r => r.index.toNat + 1
      | none => idx.toNat
    let s := if l = [] then s else s.emit (.write buf (l.flatMap fun r => leBytes 64 (recordBytes r).toNat) false)
    s.ok h 0x0602 (packAt 0 [(0, l.length), (4, next % 2 ^ 32)]))

/-- The log without the records up to an index and without their events (R463, R466). -/
def Log.clear (l : Log) (idx : Nat) : Log :=
  let keep (r : Record) : Bool := decide (r.index.toNat > idx)
  let errs := l.errs.filter keep
  { l with errs := errs, alarms := l.alarms.filter keep,
           events := l.events.filter fun e => decide (bits e.toNat 0 32 > idx),
           fullRaised := l.fullRaised && decide (errs.length ≥ 7168) }

/-- LOG_CLEAR (R466). -/
def execLogClear (h : CmdHdr) (idx : BitVec 32) (s : State) : Res :=
  .next (s.onCmd h 0x0603 [(0, 4, idx.toNat)] fun s => { s with log := s.log.clear idx.toNat }.ok h 0x0603)

/-- REGION_CL_SPARE_MAP of a cluster (R46). -/
def State.spareMap (s : State) (k : Nat) : Nat :=
  if k % 16 ≥ s.clusterCount then 2 ^ 31
  else
    let c := s.cluster k
    let half (o : Option (BitVec 4)) : Nat := match o with
      | some t => 16 + t.toNat
      | none => 0
    b2n c.spareFailed * 2 ^ 30 + b2n c.secondFail * 2 ^ 29 + half c.pend * 65536 + half c.active

/-- REPAIR (R35, R424). -/
def execRepair (h : CmdHdr) (tile : BitVec 16) (s : State) : Res :=
  .next (s.onCmd h 0x0604 [(0, 2, tile.toNat)] fun s =>
    let t : TileId := tile.extractLsb' 0 12
    let k := clusterOf t
    if tile.toNat ≥ 4096 ∨ ¬ s.validTile t then s.fail h 0x0604 stBadTile tile.toNat
    else if (s.cluster k).pend.isSome || (s.cluster k).active.isSome then s.fail h 0x0604 stRepairBusy tile.toNat
    else
      let s := s.tileFailed t 2
      s.ok h 0x0604 (s.spareMap k))

end Sys2Proof.Machine
end

