-- ==== Sys2Proof/Machine/Image.lean ====
section
/-! DEFINITION. Program images (R429), their fingerprint (R430) and the proof run over their declared exchanges (R281, R282,
R431). -/

namespace Sys2Proof.Machine

/-! ### The header and the tables (R429) -/

/-- A declared exchange: tile, barrier index, list address, L. -/
structure XDecl where
  tile : Nat
  bar : Nat
  list : Nat
  len : Nat
deriving DecidableEq, Repr

/-- A program image. A section is kept with its tile id. -/
structure Image where
  fp : List Byte
  zone : BitVec 3
  live : Bool
  own : Nat
  entry : Nat
  tiles : List (Nat × List Byte)
  laneMask : BitVec 128
  /-- each set's masks by region (R270) -/
  sets : List (SMap (BitVec 144))
  decls : List XDecl
  key : BitVec 128
deriving DecidableEq, Repr

/-- The first byte of a range that is not zero. -/
def firstSet (l : List Byte) (lo hi : Nat) : Option Nat :=
  ((List.range (hi - lo)).map (lo + ·)).find? fun i => l.getD i 0 ≠ 0

/-- The reserved bytes of the header, the fingerprint's among them. -/
def imageReserved (l : List Byte) : Option Nat :=
  firstSet l 6 8 <|> firstSet l 22 24 <|> firstSet l 28 48 <|> firstSet l 58 64 <|> firstSet l 90 96 <|> firstSet l 132 252

/-- A table of `n` entries of `w` bytes at `off` lies inside LENGTH. -/
def tableFits (len off n w : Nat) : Bool := decide (off + n * w ≤ len)

/-- The malformed entry of the tile table, if there is one: a tile named twice, a reserved byte, a section outside the image or
longer than the partition (R429). -/
def badTileEntry (l : List Byte) (len own tab n : Nat) : Option Nat :=
  let id (k : Nat) : Nat := fieldAt l (tab + 16 * k) 2
  (List.range n).findSome? fun k =>
    let e := tab + 16 * k
    let sl := fieldAt l (e + 4) 4
    if (List.range k).any fun j => id j = id k then some e
    else if fieldAt l (e + 2) 2 ≠ 0 then some (e + 2)
    else if sl > own * 65536 then some (e + 4)
    else if fieldAt l (e + 8) 8 + sl > len then some (e + 8)
    else none

/-- The sets of the multicast table: set bytes 24g to 24g + 17 are the mask of region g. -/
def parseSets (l : List Byte) (tab n : Nat) : List (SMap (BitVec 144)) :=
  (List.range n).map fun i =>
    (List.range 16).foldl (fun m g => SMap.put 0 m g (BitVec.ofNat 144 (fieldAt l (tab + 384 * i + 24 * g) 18))) []

/-- The exchange declarations. -/
def parseDecls (l : List Byte) (tab n : Nat) : List XDecl :=
  (List.range n).map fun i =>
    let e := tab + 16 * i
    { tile := fieldAt l e 2, bar := fieldAt l (e + 2) 2, list := fieldAt l (e + 4) 4, len := fieldAt l (e + 8) 4 }

/-- The tile sections. -/
def parseTiles (l : List Byte) (tab n : Nat) : List (Nat × List Byte) :=
  (List.range n).map fun i =>
    let e := tab + 16 * i
    (fieldAt l e 2, sliceBytes l (fieldAt l (e + 8) 8) (fieldAt l (e + 4) 4))

/-- Byte offset of the first thing wrong with a header (R429). -/
def headerError (l : List Byte) : Option Nat :=
  let len := fieldAt l 8 8
  let own := fieldAt l 50 2
  if l.length < 256 ∨ fieldAt l 0 4 ≠ 0x49384E54 then some 0
  else if fieldAt l 4 2 ≠ 1 then some 4
  else match imageReserved l with
    | some i => some i
    | none =>
      if fieldAt l 252 4 ≠ (crc32c (l.take 252)).toNat then some 252
      else if len < 256 ∨ len > l.length then some 8
      else if fieldAt l 48 2 / 512 ≠ 0 ∨ bits (fieldAt l 48 2) 3 5 ≠ 0 then some 48
      else if own = 0 ∨ own > 31 then some 50
      else if fieldAt l 52 4 % 8 ≠ 0 then some 52
      else if ¬ tableFits len (fieldAt l 64 8) (fieldAt l 56 2) 16 then some 64
      else match badTileEntry l len own (fieldAt l 64 8) (fieldAt l 56 2) with
        | some i => some i
        | none =>
          if fieldAt l 88 2 > 4096 then some 88
          else if ¬ tableFits len (fieldAt l 96 8) (fieldAt l 88 2) 384 then some 96
          else if ¬ tableFits len (fieldAt l 104 8) (fieldAt l 112 4) 16 then some 104
          else none

/-- The image that bytes hold, or the offset of what is malformed (R429). -/
def parseImage (l : List Byte) : Except Nat Image :=
  match headerError l with
  | some i => .error i
  | none =>
    .ok { fp := sliceBytes l 16 32, zone := BitVec.ofNat 3 (fieldAt l 48 2), live := (fieldAt l 48 2).testBit 8,
          own := fieldAt l 50 2, entry := fieldAt l 52 4, tiles := parseTiles l (fieldAt l 64 8) (fieldAt l 56 2),
          laneMask := BitVec.ofNat 128 (fieldAt l 72 16), sets := parseSets l (fieldAt l 96 8) (fieldAt l 88 2),
          decls := parseDecls l (fieldAt l 104 8) (fieldAt l 112 4), key := BitVec.ofNat 128 (fieldAt l 116 16) }

/-- A tile id of an image names a tile of the grade (R31). -/
def State.imageTileOk (s : State) (id : Nat) : Bool := decide (id < 4096) && s.validTile (BitVec.ofNat 12 id)

/-- The fields of the fingerprint that differ from the device (R430). -/
def State.fingerprintDiff (s : State) (i : Image) : Nat :=
  b2n (decide (fieldAt i.fp 0 1 ≠ 1)) + 2 * b2n (decide (fieldAt i.fp 2 1 ≠ 8) || decide (fieldAt i.fp 3 1 > 0)) +
  4 * b2n (decide (fieldAt i.fp 1 1 ≠ b2n s.fuses.grade288)) +
  8 * b2n (decide (fieldAt i.fp 4 2 ≠ s.host.sysSize.toNat)) + 16 * b2n (decide (fieldAt i.fp 8 4 ≠ s.host.zoneMap.toNat)) +
  32 * b2n (i.tiles.any fun t => !s.imageTileOk t.1)

/-! ### The proof run (R281, R282, R431) -/

/-- A failed check: DETAIL, tile id, relative address of the word, exchange cycle, lane. -/
structure ProofFail where
  code : Nat
  tile : Nat
  rel : Nat
  cycle : Nat
  lane : Nat
deriving DecidableEq, Repr

/-- RESULT of a failed proof run. -/
def ProofFail.result (f : ProofFail) : Nat := packAt 0 [(0, f.tile), (4, f.rel), (8, f.cycle), (12, f.lane)]

/-- What a proof run sees: the partition's size, the sections, the tiles of the zone, its lanes and its sets. -/
structure ProofEnv where
  size : Nat
  tiles : List (Nat × List Byte)
  members : List Nat
  lanes : BitVec 128
  sets : List (SMap (BitVec 144))

/-- A word of a declared list that is performed. -/
structure ProofWord where
  tile : Nat
  rel : Nat
  cycle : Nat
  lane : Nat
  addr : Nat
  dests : List Nat
deriving DecidableEq, Repr

/-- The sends and receives of a barrier. -/
structure ProofLists where
  sends : List ProofWord
  recvs : List ProofWord

/-- The receivers of a set (R270). -/
def setTiles (m : SMap (BitVec 144)) : List Nat :=
  m.flatMap fun e => ((List.range 144).filter fun b => e.2.getLsbD b).map fun b => 256 * e.1 + b

/-- The receivers of an RSET, none where its index is at or beyond S. -/
def ProofEnv.receivers (v : ProofEnv) (rset : Nat) : Option (List Nat) :=
  if rset.testBit 12 then v.sets[bits rset 0 12]?.map setTiles else some [bits rset 0 12]

/-- The 8 bytes of a list's word: the section's, or zero. -/
def ProofEnv.word (v : ProofEnv) (tile rel : Nat) : Nat :=
  match v.tiles.find? fun t => t.1 = tile with
  | some t => fieldAt t.2 rel 8
  | none => 0

/-- Progress through a list: the last cycle, the last send and the last receive. -/
structure ProofPos where
  last : Nat
  send : Option Nat
  recv : Option Nat

/-- The order rules of R232: CYCLE at least 4, nondecreasing, one send and one receive a cycle. -/
def ProofPos.ok (p : ProofPos) (cycle : Nat) (recv : Bool) : Bool :=
  decide (4 ≤ cycle) && decide (p.last ≤ cycle) && decide ((if recv then p.recv else p.send) ≠ some cycle)

def ProofPos.step (p : ProofPos) (cycle : Nat) (recv : Bool) : ProofPos :=
  { last := cycle, send := if recv then p.send else some cycle, recv := if recv then some cycle else p.recv }

/-- The lanes and reach of a send (R269). -/
def ProofEnv.reaches (v : ProofEnv) (lane tile : Nat) (l : List Nat) : Bool :=
  v.lanes.getLsbD lane && l.all fun d => v.members.contains d && laneReach lane (BitVec.ofNat 12 tile) (BitVec.ofNat 12 d)

/-- Walk one declared list, checks 1, 2, 3, 7 and 8 of R431. -/
def ProofEnv.walk (v : ProofEnv) (tile len : Nat) : Nat → Nat → ProofPos → ProofLists → Except ProofFail ProofLists
  | 0, _, _, acc => .ok acc
  | fuel + 1, rel, p, acc =>
    let w := v.word tile rel
    let kind := bits w 62 2
    let cycle := bits w 42 20
    let lane := bits w 35 7
    let fail (c : Nat) : Except ProofFail ProofLists := .error { code := c, tile := tile, rel := rel, cycle := cycle, lane := lane }
    let word (l : List Nat) : ProofWord :=
      { tile := tile, rel := rel, cycle := cycle, lane := lane, addr := bits w 19 16 * 32, dests := l }
    if rel + 8 > v.size then .error { code := 1, tile := tile, rel := rel, cycle := 0, lane := 0 }
    else if kind = 3 then fail 2
    else if kind = 2 then (if bits w 0 62 = 0 then .ok acc else fail 2)
    else if bits w 0 (if kind = 0 then 6 else 19) ≠ 0 then fail 2
    else if cycle ≥ len then fail 8
    else if ¬ p.ok cycle (decide (kind = 1)) then fail 2
    else if kind = 1 then
      if v.lanes.getLsbD lane then
        v.walk tile len fuel (rel + 8) (p.step cycle true) { acc with recvs := acc.recvs ++ [word []] }
      else fail 3
    else match v.receivers (bits w 6 13) with
      | none => fail 7
      | some l =>
        if v.reaches lane tile l then
          v.walk tile len fuel (rel + 8) (p.step cycle false) { acc with sends := acc.sends ++ [word l] }
        else fail 3

/-- The lists of one barrier. -/
def ProofEnv.walkAll (v : ProofEnv) : List XDecl → ProofLists → Except ProofFail ProofLists
  | [], acc => .ok acc
  | d :: rest, acc =>
    let len := min 1048576 d.len
    if len = 0 then v.walkAll rest acc
    else if v.tiles.all fun t => t.1 ≠ d.tile then
      .error { code := 1, tile := d.tile, rel := bits d.list 0 32, cycle := 0, lane := 0 }
    else match v.walk d.tile len (2 * len + 1) (d.list / 128 * 128) { last := 0, send := none, recv := none } acc with
      | .error f => .error f
      | .ok acc => v.walkAll rest acc

/-- Where a send's word arrives: lane, instance and exchange cycle (R267, R272). -/
def ProofWord.arrivals (w : ProofWord) : List (Nat × Nat) :=
  w.dests.foldl (fun l d =>
    let t : TileId := BitVec.ofNat 12 d
    let a := (laneInst w.lane t, w.cycle + laneLatency w.lane (regionOf (BitVec.ofNat 12 w.tile)) (regionOf t))
    if l.contains a then l else l ++ [a]) []

/-- The cycle at which a receiver takes a send's word. -/
def ProofWord.at? (w : ProofWord) (d : Nat) : Nat :=
  w.cycle + laneLatency w.lane (regionOf (BitVec.ofNat 12 w.tile)) (regionOf (BitVec.ofNat 12 d))

/-- The failure of a check at a word. -/
def ProofWord.fail (w : ProofWord) (code : Nat) : ProofFail :=
  { code := code, tile := w.tile, rel := w.rel, cycle := w.cycle, lane := w.lane }

/-- Check 9: a send of bytes that a receive of its tile writes, 0–3 xc after it (R431). -/
def ProofLists.tooClose (p : ProofLists) : Option ProofFail :=
  (p.sends.find? fun w => p.recvs.any fun r =>
    decide (r.tile = w.tile) && decide (r.addr = w.addr) && decide (r.cycle ≤ w.cycle) && decide (w.cycle < r.cycle + 4)).map
    (·.fail 9)

/-- Check 4: a send that meets an earlier one on an instance (R281, item 2). -/
def collision : List ProofWord → List ProofWord → Option ProofFail
  | _, [] => none
  | seen, w :: rest =>
    if seen.any fun v => decide (v.lane = w.lane) && v.arrivals.any fun a => w.arrivals.contains a then some (w.fail 4)
    else collision (seen ++ [w]) rest

/-- A receive takes a send's word. -/
def ProofWord.takes (r w : ProofWord) : Bool :=
  decide (r.lane = w.lane) && w.dests.contains r.tile && decide (w.at? r.tile = r.cycle)

/-- Check 5: a receive to which no send's word comes (R281, item 3). -/
def ProofLists.missing (p : ProofLists) : Option ProofFail := (p.recvs.find? fun r => !p.sends.any fun w => r.takes w).map (·.fail 5)

/-- Check 6: a send with a receiver that does not take its word (R281, item 4). -/
def ProofLists.untaken (p : ProofLists) : Option ProofFail :=
  (p.sends.find? fun w => w.dests.any fun d => !p.recvs.any fun r => decide (r.tile = d) && r.takes w).map (·.fail 6)

/-- The proof run of one barrier's declarations. -/
def ProofEnv.barrier (v : ProofEnv) (l : List XDecl) : Option ProofFail :=
  match v.walkAll l { sends := [], recvs := [] } with
  | .error f => some f
  | .ok p => p.tooClose <|> collision [] p.sends <|> p.missing <|> p.untaken

/-- The proof run of an image: its entry address, then each barrier's declarations in order. -/
def ProofEnv.run (v : ProofEnv) (entry : Nat) (decls : List XDecl) : Option ProofFail :=
  let first := (v.tiles.head?.map (·.1)).getD 0
  if entry ≥ v.size then some { code := 1, tile := first, rel := entry, cycle := 0, lane := 0 }
  else
    let bars := (List.range 65536).filter fun b => decls.any fun d => d.bar = b
    bars.findSome? fun b => v.barrier (decls.filter fun d => d.bar = b)

end Sys2Proof.Machine
end

