-- ==== Sys2Proof/Machine/Reset.lean ====
section
/-! DEFINITION. Resets of the device, regions, tiles and contexts as the host and the pins ask for them (R432–R438, R450,
R493), and the power-good inputs. -/

namespace Sys2Proof.Machine

/-! ### Conditions -/

/-- The groups of the power-good inputs in their order (R491): CORE_A and CORE_B are one group. -/
def pgGroup (i : Nat) : Nat := if i ≤ 3 then i else i - 1

/-- An input counts as high only while every input of an earlier group is high (R493). -/
def Chip.pgHigh (c : Chip) (i : Nat) : Bool :=
  c.pg.contains i && (List.range 7).all fun j => decide (pgGroup j ≥ pgGroup i) || c.pg.contains j

/-- Every power-good input is high. -/
def Chip.allPg (c : Chip) : Bool := (List.range 7).all c.pgHigh

/-- The device is in a reset of warm scope or wider: the boot sequence has not ended, neither at READY nor at a failed
self-test or HBM training (R432, R439). -/
def State.inReset (s : State) : Bool :=
  !s.host.ready && !(decide (s.chip.fail = 2) || decide (s.chip.fail = 3))

/-- A thermal trip is latched, or EXTEST is selected: the fence outlasts a reset (R407, R433, R471). -/
def State.tripped (s : State) : Bool := s.power.thermTrip.getLsbD 31 || s.chip.extest

/-- Set a bit of CHIP_RESET_CAUSE. -/
def State.setCause (s : State) (b : Nat) : State :=
  { s with chip := { s.chip with cause := s.chip.cause ||| (1#9 <<< b) } }

/-! ### The state after the widest resets (R437) -/

/-- The log after a reset of warm scope or wider: its records stay, no window is open, and the fence is gone unless a thermal
trip is latched. -/
def Log.afterReset (l : Log) (keepFence : Bool) : Log :=
  { l with windows := [], fenced := l.fenced && keepFence, fenceCause := if keepFence then l.fenceCause else 0 }

/-- The regions after a reset of PERST# or warm scope: SLIP_COUNT counts since power-on (REGION_XCAL_STATUS). -/
def regionsAfter (m : SMap Region) : SMap Region :=
  (m.map fun e => (e.1, { Region.reset with slipCount := e.2.slipCount })).filter fun e => e.2 ≠ Region.reset

/-- The arbiters after such a reset: the grants that its owners held are abandoned (R309), the maps, N and AGE_NOW are at their
reset values (R437). While the ports forward, the grants of their ingress in class 7 stay. -/
def State.arbAfter (s : State) (forwarding : Bool) : Arb :=
  let keep (cls : Nat) : Bool := forwarding && decide (cls = 7)
  let s := s.release fun r => !(keep r.cls && decide (16 ≤ r.input) && decide (r.input < 48))
  let s := if s.arb.granted then s.noteAbandon 8 0 else s
  { Arb.reset with stat := s.arb.stat, holdAbandoned := s.arb.holdAbandoned || s.arb.granted,
                   insts := s.arb.insts.filter fun e => keep (e.1 / 4096) }

/-- After power-on reset: everything at its reset value; the fuses, the levels of the inputs, and what has already left the
device are not the device's to reset. -/
def State.poweredOn (s : State) (aon : Bool) : State :=
  let pg := s.chip.pg.filter fun i => i ≠ 0
  { State.reset with
    fuses := s.fuses, free := s.free, pending := s.pending
    host := { HostIf.reset with out := s.host.out }
    fabric := { Fabric.reset with wire := s.fabric.wire }
    chip := { Chip.reset with perst := s.chip.perst, pg := if aon then 0 :: pg else pg, powered := aon,
                              busClears := s.chip.busClears, repairRec := s.chip.repairRec } }

/-- After a PERST# reset (R436, R437). -/
def State.perstState (s : State) : State :=
  let fence := s.tripped || !s.chip.allPg
  { s with
    time := 0, tiles := [], zones := [], tracks := []
    clusters := (s.clusters.map fun e => (e.1, { Cluster.reset with errWindows := e.2.errWindows })).filter fun e =>
      e.2 ≠ Cluster.reset
    regions := regionsAfter s.regions
    log := { s.log.afterReset fence with alarmCfg := Log.reset.alarmCfg, ceCfg := Log.reset.ceCfg, hostErr := 0, logIdx := 0 }
    memory := Memory.reset
    host := { HostIf.reset with out := s.host.out }
    arb := s.arbAfter false
    fabric := { Fabric.reset with wire := s.fabric.wire }
    post := PostPlane.reset
    xgroups := []
    dbg := Dbg.reset
    power := { Power.reset with energy := s.power.energy, energyRem := s.power.energyRem, thermTrip := s.power.thermTrip
                                domOff := List.range 206 }
    chip := { s.chip with fwVer := 0, imageSvn := 0, source := 0, stage := 1, fail := 0, failUnit := 0, slot0 := 0, slot1 := 0,
                          warmBusy := false, warmFabric := false, heldReset := none, keyArmed := false, tileBusy := false,
                          rcvState := 0, rcvLen := 0, rcvData := [], ramImage := none, pgFenced := s.chip.pgFenced && fence,
                          refLost := false, retries := [], unresponsive := [], regionWait := 0 } }

/-- A cluster controller after a warm reset, with its tiles emptied: the spare map is kept and a pending substitution is
active (R33, R437), and WINDOWS counts on. -/
def Cluster.afterWarm (c : Cluster) : Cluster :=
  { Cluster.reset with
    spareFailed := c.spareFailed, secondFail := c.secondFail, pendReason := c.pendReason, errWindows := c.errWindows
    active := c.active <|> c.pend }

/-- The fabric after a warm reset. With FABRIC = 0 the ports, the routes and what they forward go on, and the requests of this
device are abandoned; with FABRIC = 1 it is as after power-on (R435, R437). -/
def Fabric.afterWarm (f : Fabric) (fabric : Bool) : Fabric :=
  if fabric then { Fabric.reset with wire := f.wire }
  else { f with postOut := [], ctrlReqs := [], ctrlIn := [],
                outq := f.outq.filter fun o => o.ingress.isSome || decide (vcOf o.pkt.type = 3) }

/-- After a device warm reset, at the start of its boot (R435, R437, R438). -/
def State.warmState (s : State) (fabric : Bool) : State :=
  let asleep (m : Stack) : Stack := { m with selfRefresh := true, openRows := [] }
  { s with
    time := 0, tiles := [], zones := [], tracks := [], regions := regionsAfter s.regions
    clusters := (s.clusters.map fun e => (e.1, e.2.afterWarm)).filter fun e => e.2 ≠ Cluster.reset
    log := s.log.afterReset s.tripped
    memory := { s.memory with reqs := [], intlvBusy := false, stks := s.memory.stks.map fun e => (e.1, asleep e.2) }
    host := { HostIf.reset with power := s.host.power, out := s.host.out, held := s.host.held, saves := s.host.saves }
    arb := s.arbAfter (!fabric)
    fabric := s.fabric.afterWarm fabric
    post := PostPlane.reset
    xgroups := []
    dbg := { s.dbg with tapBusy := false, op := none }
    power := { s.power with ready := false, recs := [], zones := [], domPending := [], domHold := false, domWork := []
                            pkgDroop := false, predInt := 0 }
    chip := { s.chip with fwVer := 0, imageSvn := 0, stage := 2, fail := 0, failUnit := 0, slot0 := 0, slot1 := 0,
                          warmBusy := true, warmFabric := fabric, heldReset := none, keyArmed := false, tileBusy := false,
                          rcvState := 0, rcvLen := 0, rcvData := [], pgFenced := false, refLost := false, retries := [],
                          unresponsive := [], regionWait := 0 } }

/-! ### Warm resets (R433, R435, R450) -/

/-- A warm reset with a cause bit. One already under way absorbs it; with a power-good input low it waits for that input
(R433, R450). -/
def State.warmReset (s : State) (cause : Nat) (fabric : Bool) : State :=
  if s.inReset then s.setCause 8
  else if s.chip.allPg then (s.warmState fabric).setCause cause
  else { s with chip := { s.chip with heldReset := some (cause, fabric) } }

/-- CHIP_RESET: acts only with its key. -/
def State.writeChipReset (s : State) (v : Word32) : State :=
  if v.extractLsb' 0 16 = 0xA5C3#16 ∧ v.getLsbD 31 then s.warmReset 3 (v.getLsbD 30) else s

/-- WARM_RESET (R435). -/
def execWarmReset (v : Word32) (s : State) : Res := .next (s.writeChipReset v)

/-- The function's PCIe power state after a reset that resets its configuration space. -/
def State.toD0 (s : State) : State := { s with host := { s.host with power := .d0 } }

/-- HOT_RESET (R435). -/
def execHotReset (s : State) : Res := .next ((s.warmReset 2 false).toD0)
/-- FUNCTION_LEVEL_RESET (R435). -/
def execFunctionLevelReset (s : State) : Res := .next ((s.warmReset 2 false).toD0)

/-! ### Power-on, PERST# and the power-good inputs (R432, R436, R439, R450, R493) -/

/-- The boot sequence starts at step 2 once every power-good input is high and PERST_N is high; the fence ends then unless a
thermal trip is latched (R437, R439). -/
def State.startBoot (s : State) : State :=
  if s.chip.powered && !s.chip.perst && s.chip.allPg && decide (s.chip.stage = 1) then
    { s with log := s.log.afterReset s.tripped, chip := { s.chip with stage := 2, pgFenced := false } }
  else s

/-- POWER_ON_RESET: PG_AON rises through its filter. Inputs that are high already count. -/
def execPowerOnReset (s : State) : Res := .next (s.poweredOn true).startBoot

/-- PG_AON_FALL: power-on reset is asserted at once, and the outputs park (R493). -/
def execPgAonFall (s : State) : Res := .next (s.poweredOn false)

/-- PERST_ASSERT: everything but the always-on records is held in reset while PERST_N is low (R436). -/
def execPerstAssert (s : State) : Res :=
  if s.chip.perst then .next s
  else .next ({ s.perstState with chip := { s.perstState.chip with perst := true } }.setCause 1)

/-- PERST_DEASSERT. -/
def execPerstDeassert (s : State) : Res :=
  .next ({ s with chip := { s.chip with perst := false } }.startBoot)

/-- PG_FALL: before step 1 has ended the input is low again; after it the device fences itself and stays fenced until a reset
(R450). The record names the input by its place in R491's order. -/
def execPgFall (input : Nat) (s : State) : Res :=
  if input = 0 ∨ input > 6 ∨ ¬ s.chip.pg.contains input then .next s
  else
    let later := decide (s.chip.stage ≠ 1)
    let s := { s with chip := { s.chip with pg := s.chip.pg.filter fun i => i ≠ input } }
    if s.chip.powered ∧ later = true then
      let idx := s.log.next.toNat
      let s := s.record 0x0403 1 4 input false 0 7 0
      .next ({ s with chip := { s.chip with pgFenced := true } }.fence idx)
    else .next s

/-- PG_INPUT_RISE: step 1 may end, and a reset held after a fall proceeds (R439, R450, R493). -/
def execPgInputRise (input : Nat) (s : State) : Res :=
  if input = 0 ∨ input > 6 ∨ s.chip.pg.contains input then .next s
  else
    let s := { s with chip := { s.chip with pg := input :: s.chip.pg } }
    match s.chip.heldReset, s.chip.allPg with
    | some h, true => .next ((s.warmState h.2).setCause h.1)
    | _, _ => .next s.startBoot

/-- PG_TIMEOUT: 500 ms have passed since PG_AON and an input is still low; the device goes on waiting (R439). -/
def execPgTimeout (s : State) : Res :=
  if s.chip.powered ∧ s.chip.stage = 1 ∧ s.chip.allPg = false then
    .next { s with chip := { s.chip with fail := 1 } }.countTimeout
  else .next s

/-! ### Region, tile and context resets (R432–R434) -/

/-- CHIP_RESET_KEY. -/
def State.writeResetKey (s : State) (v : Word32) : State :=
  { s with chip := { s.chip with keyArmed := s.chip.keyArmed || decide (v.extractLsb' 0 16 = 0xA5C3#16) } }

/-- RESET_KEY_ARM. -/
def execResetKeyArm (v : Word32) (s : State) : Res := .next (s.writeResetKey v)

/-- CHIP_RESET_REGION: any GO clears the arming; unarmed it is ignored; within a wider reset it is absorbed. -/
def State.writeResetRegion (s : State) (v : Word32) : State :=
  if ¬ v.getLsbD 31 then s
  else
    let armed := s.chip.keyArmed
    let s := { s with chip := { s.chip with keyArmed := false } }
    if !armed then s
    else if s.inReset then s.setCause 8
    else
      let gs := (List.range 16).filter fun g => v.getLsbD g
      if gs = [] then s
      else
        let s := (s.each gs fun s g => s.regionReset g noRecord).setCause 5
        { s with chip := { s.chip with regionWait := v.extractLsb' 0 16 } }

/-- CHIP_RESET_REGION.BUSY: the steward of a region of the last request, or a crossing that touches it, is not ready (R432). -/
def State.regionResetBusy (s : State) : Bool :=
  let open' (x : Crossing) : Bool := x.recalPend || x.busy
  (List.range 16).any fun g => s.chip.regionWait.getLsbD g && s.domainOn (144 + g) &&
    (!(s.region g).stewardOk || (List.range 16).any fun o =>
      decide (o ≠ g) && (open' ((s.region g).crossing o) || open' ((s.region o).crossing g)))

/-- REGION_RESET. -/
def execRegionReset (v : Word32) (s : State) : Res := .next (s.writeResetRegion v)

/-- CHIP_RESET_TILE: SCOPE 1 a tile, SCOPE 0 a context, which waits for the end of an exchange (R433). -/
def State.writeResetTile (s : State) (v : Word32) : State :=
  if ¬ v.getLsbD 31 then s
  else
    let t : TileId := v.extractLsb' 0 12
    let c := v.getLsbD 28
    let armed := s.chip.keyArmed
    let s := { s with chip := { s.chip with keyArmed := false } }
    if !armed || !s.validTile t then s
    else if s.inReset then s.setCause 8
    else if v.getLsbD 29 then (s.tilesReset [t] noRecord).setCause 6
    else if (s.ctx t c).resetPend then s.setCause 8
    else
      let s := (s.ctxReset t c false noRecord).setCause 7
      { s with chip := { s.chip with tileBusy := (s.ctx t c).resetPend } }

/-- TILE_RESET: a write with SCOPE = 1. -/
def execTileReset (v : Word32) (s : State) : Res := .next (s.writeResetTile (v ||| 0x20000000#32))
/-- CONTEXT_RESET: a write with SCOPE = 0. -/
def execContextReset (v : Word32) (s : State) : Res := .next (s.writeResetTile (v &&& 0xDFFFFFFF#32))

/-- CHIP_RESET_TILE.BUSY: the last request waits for an end decision (R433). -/
def State.tileResetBusy (s : State) : Bool :=
  s.chip.tileBusy && s.tiles.any fun p => p.2.c0.resetPend || p.2.c1.resetPend

end Sys2Proof.Machine
end

