-- ==== Sys2Proof/Machine/Boot.lean ====
section
/-! DEFINITION. The boot sequence (R439–R444), firmware images (R441), recovery boot (R443), the pins (R445–R450), range checks of
reports (R451, R452) and the bounds of external handshakes (R453). -/

namespace Sys2Proof.Machine

/-! ### Multifunction pins (R447–R450) -/

def State.pin (s : State) (n : Nat) : Pin := SMap.get Pin.reset s.chip.pins n
def State.modPin (s : State) (n : Nat) (f : Pin → Pin) : State :=
  { s with chip := { s.chip with pins := SMap.put Pin.reset s.chip.pins n (f (s.pin n)) } }

/-- The pins of the group that pin n forms under a function; a function of one pin is its own group (R447). -/
def pinGroup (func : BitVec 4) (n : Nat) : List Nat :=
  match func.toNat with
  | 4 | 5 => [n / 2 * 2, n / 2 * 2 + 1]
  | 6 => [n / 4 * 4, n / 4 * 4 + 1, n / 4 * 4 + 2, n / 4 * 4 + 3]
  | _ => [n]

/-- The functions that have transactions (R449, R453). -/
def hasTransactions (func : BitVec 4) : Bool := decide (func = 4) || decide (func = 5) || decide (func = 6)

/-- Pin n leaves its function for another and parks; the pins of its old group, incomplete now, park with it (R447, R448). -/
def State.parkPin (s : State) (n : Nat) (func : BitVec 4) : State :=
  let old := (s.pin n).func
  let s := s.each ((pinGroup old n).filter fun m => m ≠ n ∧ (s.pin m).func = old) fun s m =>
    s.modPin m fun p => { p with parked := p.parked <|> some s.time, startAt := none }
  s.modPin n fun p => { p with func := func, want := none, parked := some s.time, startAt := none }

/-- A write of CHIP_MFP_SEL_n (R447–R449). `busy` says whether the pin's function has a transaction in progress. A reserved FUNC
leaves the selection as it is. -/
def State.writeMfpSel (s : State) (n : Nat) (v : Word32) (busy : Bool) : State :=
  if n ≥ 24 then s
  else
    let f : BitVec 4 := v.extractLsb' 0 4
    let force := v.getLsbD 30
    let s := s.modPin n fun p => { p with filter := v.extractLsb' 12 8 }
    let p := s.pin n
    let inUse := busy && hasTransactions p.func && p.parked.isNone
    if f.toNat > 8 then s
    else if f = p.func then
      if p.want.isSome then s.modPin n fun p => { p with want := none } else s
    else if inUse && !force then s.modPin n fun p => { p with want := some f }
    else
      let s := if inUse then s.modPin n fun p => { p with busClear := true } else s
      s.parkPin n f

/-- MFP_SELECT. -/
def execMfpSelect (n : Nat) (v : Word32) (busy : Bool) (s : State) : Res := .next (s.writeMfpSel n v busy)

/-- A waiting change of pin n goes ahead (R449). -/
def State.pendingSwitch (s : State) (n : Nat) : State :=
  match (s.pin n).want with
  | some f => s.parkPin n f
  | none => s

/-- MFP_PENDING_SWITCH: the transaction it waits for has ended. -/
def execMfpPendingSwitch (n : Nat) (s : State) : Res := .next (if n < 24 then s.pendingSwitch n else s)

/-- Pin n has completed its 32 rc of parking. -/
def State.parkDone (s : State) (n : Nat) : Bool :=
  match (s.pin n).parked with
  | some t => decide ((s.time - t).toNat ≥ 32)
  | none => false

/-- Pin n, parked for 32 rc, starts its function with its whole group (R448); an I²C port whose switch cut a transaction
clears its bus first (R449). -/
def State.startPins (s : State) (n : Nat) : State :=
  let f := (s.pin n).func
  let l := pinGroup f n
  if l.all fun m => decide ((s.pin m).func = f) && s.parkDone m then
    let clear := decide (f = 4) && l.any fun m => (s.pin m).busClear
    let s := s.each l fun s m => s.modPin m fun p => { p with parked := none, startAt := some s.time, busClear := false }
    if clear then { s with chip := { s.chip with busClears := s.chip.busClears ++ [n / 2] } } else s
  else s

/-- MFP_PARK_END. -/
def execMfpParkEnd (n : Nat) (s : State) : Res := .next (if n < 24 ∧ s.parkDone n = true then s.startPins n else s)

/-- INPUT_FILTER_CHANGE: a filtered level changes; within FILTER rc of the function's start edges are discarded (R448, R450). -/
def execInputFilterChange (n : Nat) (level : Bool) (s : State) : Res :=
  let p := s.pin n
  let held := match p.startAt with
    | some t => decide ((s.time - t).toNat < p.filter.toNat)
    | none => false
  .next (if n < 24 ∧ held = false then s.modPin n fun p => { p with level := level } else s)

/-- The level that pin n drives as a GPIO output, or none where it does not drive: parked, an input, open drain released (R446, R447,
R448, CHIP_GPIO_OUT). -/
def State.gpioDrive (s : State) (n : Nat) : Option Bool :=
  let p := s.pin n
  if ¬ s.chip.powered ∨ p.parked.isSome then none
  else match p.func.toNat with
    | 2 => some (s.chip.gpioOut.getLsbD n)
    | 3 => if s.chip.gpioOut.getLsbD n then none else some false
    | _ => none

/-- The duty in percent that a FAN_PWM pin drives: full while the device is fenced or a trip is latched (R446). -/
def State.fanDrive (s : State) (n : Nat) : Nat :=
  if s.log.fenced || s.tripped then 100 else SMap.get 100 s.chip.fanDuty n

/-! ### Firmware images (R441) -/

/-- SHA-384 over the message that the signature covers. -/
def imageDigest (img : List Byte) (body : Nat) : BitVec 384 :=
  Config.sha384 (img.take 136 ++ (img.drop 232).take (24 + body))

/-- The reserved bytes and fields of a header are as the table gives. -/
def headerOk (img : List Byte) : Bool :=
  let f (off n : Nat) : Nat := fieldAt img off n
  let body := f 16 4
  let zero (off n : Nat) : Bool := ((img.drop off).take n).all fun b => b = 0
  decide (img.length ≥ 256) && decide (f 0 4 = 0x46384E54) && decide (f 4 2 = 1) && decide (f 7 1 ≤ 1) && zero 20 12 &&
    zero 129 7 && zero 232 24 && decide (1 ≤ body) && decide (body ≤ 4194304) && decide (img.length ≥ 256 + body)

/-- The result of the boot ROM's checks, coded as in CHIP_BOOT_STATUS.SLOT0: 1 passed, 3 header, 4 key, 5 SVN, 6 signature. -/
def State.verifyImage (s : State) (img : List Byte) : Nat :=
  let f (off n : Nat) : Nat := fieldAt img off n
  let slot := f 6 1
  let key := (img.drop 32).take 97
  if !headerOk img then 3
  else if slot > 2 ∨ s.fuses.keyRevoked.contains slot ∨ Config.sha384 key ≠ SMap.get 0 s.fuses.keyHashes slot then 4
  else if f 8 4 < s.fuses.minSvn.toNat then 5
  else if Config.signatureOk (key ++ (img.drop 136).take 96) (imageDigest img (f 16 4)) then 1
  else 6

/-- The image of a flash slot and its result: a slot that has failed a read is not tried again (R442). -/
def State.trySlot (s : State) (was : BitVec 4) (img : Option (List Byte)) : Nat × Option (List Byte) :=
  match decide (was = 2), img with
  | false, some l => let r := s.verifyImage l; (r, if r = 1 then some l else none)
  | _, _ => (2, none)

/-- Recovery boot: the boot ROM waits for the host port (R443). -/
def State.recoveryBoot (s : State) : State :=
  { s with chip := { s.chip with stage := 3, source := 3, rcvState := 1 } }

/-- The copy in always-on RAM that a warm boot uses (R439). -/
def State.ramCopy (s : State) : Option (List Byte) :=
  match s.chip.warmBusy, s.chip.ramImage with
  | true, some l => if s.verifyImage l = 1 then some l else none
  | _, _ => none

/-- Steps 3 and 4: the RAM copy in a warm boot, then slot 0, slot 1, and recovery boot (R439, R442, R443). -/
def State.loadFirmware (s : State) (env : BootEnv) : State × Option (List Byte) :=
  match s.ramCopy with
  | some l => (s, some l)
  | none =>
    let r0 := s.trySlot s.chip.slot0 env.slot0
    let s := { s with chip := { s.chip with slot0 := BitVec.ofNat 4 r0.1 } }
    match r0.2 with
    | some l => ({ s with chip := { s.chip with source := 1 } }, some l)
    | none =>
      let r1 := s.trySlot s.chip.slot1 env.slot1
      let s := { s with chip := { s.chip with slot1 := BitVec.ofNat 4 r1.1 } }
      match r1.2 with
      | some l => ({ s with chip := { s.chip with source := 2 } }, some l)
      | none => (s.recoveryBoot, none)

/-! ### Steps 5 to 9 (R439) -/

/-- The stack that keeps step 5 from passing: one that fails training, or in a warm boot one that was never trained. -/
def State.hbmFault (s : State) (env : BootEnv) : Option Nat :=
  if s.chip.warmBusy then (List.range 8).find? fun m => !(s.stack m).trained
  else match env.hbmFail with
    | some m => if m < 8 then some m else none
    | none => none

/-- Step 5: training and zero fill, or in a warm boot the exit from self-refresh. -/
def State.bootMemory (s : State) : State :=
  s.each (List.range 8) fun s m =>
    s.modStack m fun x => if s.chip.warmBusy then { x with selfRefresh := false } else { Stack.reset with trained := true }

/-- Step 5 fails: FAIL = HBM, and the device is fenced (R440). A stack that fails training has passed its bound, which is counted
(R453; assumption 56). -/
def State.bootHbmFails (s : State) (m : Nat) : State :=
  let s := if s.chip.warmBusy then s else s.countTimeout
  { s with chip := { s.chip with stage := 5, fail := 3, failUnit := BitVec.ofNat 8 m } }.fence noRecord

/-- Step 6, one crossing: valid with its measured depth, or a region-level error (R279). -/
def State.bootCrossing (s : State) (env : BootEnv) (src g : Nat) : State :=
  let depth := ((env.depths.find? fun e => e.1 = 16 * g + src).map (·.2)).getD env.depth
  let bad := env.badCrossings.contains (16 * g + src) || decide (depth = 0)
  let s := s.modCrossing src g fun _ => { Crossing.reset with valid := !bad, depth := depth }
  if bad then s.record 0x0306 1 2 g false 0 0 (xcalDetail src ((s.region g).crossing src)) else s

/-- Step 6: stewards up, clocks locked, every crossing calibrated. -/
def State.bootCrossings (s : State) (env : BootEnv) : State :=
  let s := s.each (List.range 16) fun s g =>
    s.modRegion g fun r => { r with stewardOk := !s.chip.warmBusy || s.domainOn (144 + g), refLock := true, bootCalDone := true }
  let s := s.each (List.range 256) fun s i => if i / 16 = i % 16 then s else s.bootCrossing env (i % 16) (i / 16)
  s.xcalRefresh

/-- Step 7: the device id and the port settings, and the enabled ports start at DETECT (R358, R366). -/
def State.bootFabric (s : State) (env : BootEnv) : State :=
  let fab := { s.fabric with devValid := env.devId.isSome, devId := env.devId.getD 0,
                             portCfg := env.portCfg.foldl (fun m e =>
                               if e.1 < 32 then SMap.put portCfgReset m e.1 (e.2 &&& 0xFF000000#32) else m) s.fabric.portCfg }
  let s := { s with fabric := fab }
  s.each (List.range 32) fun s p =>
    if s.portEn p then
      let s := s.modHalf (2 * p) fun _ => { Half.reset with state := 1 }
      if s.portSplit p then s.modHalf (2 * p + 1) fun _ => { Half.reset with state := 1 } else s
    else s

/-- Step 8, one cluster's fields. -/
def State.applySpare (s : State) (e : SpareFields) : State :=
  s.modCluster e.cluster fun c =>
    { c with spareFailed := e.spareFailed, secondFail := e.secondFail, active := e.active, pend := none }

/-- Step 8: the spare maps of the fuses, then of the repair record (R35); a warm boot keeps them (R437). -/
def State.bootSpares (s : State) (env : BootEnv) : State :=
  if s.chip.warmBusy then s.applySubsts
  else
    let s := s.each s.fuses.spare State.applySpare
    if env.repairOk then s.each s.chip.repairRec State.applySpare else s.alarm 0x0509 3 0

/-- The domains that are off at READY: fused clusters, and the ports that are not enabled (R388, R389). -/
def State.offAtReady (s : State) : List Nat :=
  (List.range 207).filter fun d =>
    s.domainFused d || (decide (170 ≤ d) && decide (d < 202) && !s.portEn (d - 170))

/-- The core voltage of a die at boot: that of code 8, at which the regions run (R46, R401). -/
def State.bootVoltage (s : State) (d : Nat) : State :=
  let v : BitVec 10 := BitVec.ofNat 10 (max (s.vf d 0) (s.vf d 8))
  s.modDie d fun t => { t with vcore := v, vconfirmed := v }

/-- Step 9: the governor takes control and READY sets (R439); an image with COMMIT_SVN raises the fused minimum (R441); a warm
reset that was chip-level recovery has completed (R459). -/
def State.bootReady (s : State) (env : BootEnv) (img : List Byte) : State :=
  let f (off n : Nat) : Nat := fieldAt img off n
  let svn := f 8 4
  let warm := s.chip.warmBusy
  let off := if warm then s.power.domOff else s.offAtReady
  let model := if warm then s.power.model
               else (env.model.take 5).foldl (fun (m : SMap (BitVec 16) × Nat) e => (SMap.put 0 m.1 m.2 e, m.2 + 1)) ([], 0) |>.1
  let s := { s with
    power := { s.power with ready := true, domOff := off, model := model, baseOff := if warm then s.power.baseOff else off }
    fuses := { s.fuses with minSvn := if f 7 1 = 1 then BitVec.ofNat 32 (max s.fuses.minSvn.toNat svn) else s.fuses.minSvn }
    host := { s.host with ready := true }
    chip := { s.chip with stage := 9, fwVer := BitVec.ofNat 32 (f 12 4), imageSvn := BitVec.ofNat 16 svn,
                          ramImage := some img, warmBusy := false, warmFabric := false } }
  let s := if warm then s else
    (s.each ((List.range 32).filter fun p => !s.portEn p) fun s p => s.setDomReq (portDomain p) true).bootVoltage 0 |>.bootVoltage 1
  let s := s.each (s.log.windows.filter fun w => w.level = 3 ∧ w.action = 6) fun s w =>
    (s.recoveryRecord w w.rec2 0).closeWindow 3 w.unit
  s.retarget

/-- Steps 5 to 9 with a verified image. -/
def State.bootFrom5 (s : State) (env : BootEnv) (img : List Byte) : State :=
  match s.hbmFault env with
  | some m => s.bootHbmFails m
  | none =>
    let s := (s.bootMemory).bootCrossings env
    let s := if s.chip.warmBusy && !s.chip.warmFabric then s else s.bootFabric env
    (s.bootSpares env).bootReady env img

/-- The selection of the board configuration record, applied once after power-on (R446). -/
def State.bootPins (s : State) (env : BootEnv) : State :=
  if s.chip.pinsDue then
    let s := s.each env.mfp fun s e =>
      s.writeMfpSel e.1 (BitVec.ofNat 32 (e.2.1.toNat + 4096 * e.2.2.toNat)) false
    { s with chip := { s.chip with pinsDue := false } }
  else s

/-- A boot sequence may run: power good, PERST_N high, and no failure that halts it. -/
def State.bootable (s : State) : Bool :=
  s.chip.powered && !s.chip.perst && s.chip.allPg && !s.host.ready && !(decide (s.chip.fail = 2) || decide (s.chip.fail = 3))

/-- BOOT_SEQUENCE: from step 2, or from step 5 with the image that recovery boot has accepted (R439, R443). -/
def execBootSequence (env : BootEnv) (s : State) : Res :=
  if s.bootable = false then .next s
  else if s.chip.rcvState = 6 ∧ s.chip.stage = 5 then .next (s.bootFrom5 env s.chip.rcvData)
  else if s.chip.rcvState ≠ 0 ∨ ¬ (s.chip.stage = 2 ∨ s.chip.stage = 3) then .next s
  else if env.selfTestOk = false then .next { s with chip := { s.chip with stage := 2, fail := 2 } }
  else
    match (s.bootPins env).loadFirmware env with
    | (s, some img) => .next (s.bootFrom5 env img)
    | (s, none) => .next s

/-! ### Recovery boot (R443) -/

/-- The boot ROM waits for the host port or takes its image. -/
def State.inRecovery (s : State) : Bool :=
  decide (s.chip.stage = 3) && decide (s.chip.rcvState ≠ 0) && decide (s.chip.rcvState ≠ 6)

/-- START: a transfer of LENGTH bytes; during a transfer it restarts. A LENGTH out of range starts none. -/
def State.rcvStart (s : State) (v : Word32) : State :=
  let len := bits v.toNat 0 23
  if s.inRecovery ∧ 256 ≤ len ∧ len ≤ 4194560 then
    { s with chip := { s.chip with rcvState := 2, rcvLen := len, rcvData := [] } }
  else s

/-- The next 4 bytes; beyond LENGTH they are ignored. -/
def State.rcvWord (s : State) (v : Word32) : State :=
  if s.chip.rcvState = 2 ∧ s.chip.rcvData.length < s.chip.rcvLen then
    { s with chip := { s.chip with rcvData := (s.chip.rcvData ++ leBytes 4 v.toNat).take s.chip.rcvLen } }
  else s

/-- DONE: the image is verified (R441). -/
def State.rcvDone (s : State) : State :=
  if s.chip.rcvState = 2 then
    if s.verifyImage s.chip.rcvData = 1 then { s with chip := { s.chip with rcvState := 6, stage := 5 } }
    else { s with chip := { s.chip with rcvState := 4 } }
  else s

/-- CHIP_RCV_CTL: START goes before DONE. -/
def State.writeRcvCtl (s : State) (v : Word32) : State :=
  if v.getLsbD 31 then s.rcvStart v else if v.getLsbD 30 then s.rcvDone else s

/-- RECOVERY_BOOT_START. -/
def execRecoveryBootStart (v : Word32) (s : State) : Res := .next (s.rcvStart v)
/-- RECOVERY_BOOT_DATA. -/
def execRecoveryBootData (v : Word32) (s : State) : Res := .next (s.rcvWord v)
/-- RECOVERY_BOOT_DONE. -/
def execRecoveryBootDone (v : Word32) (s : State) : Res := .next (s.writeRcvCtl (v ||| 0x40000000#32))

/-- RECOVERY_TRANSFER_STALL. -/
def execRecoveryTransferStall (s : State) : Res :=
  if s.chip.rcvState = 2 then
    .next ({ s with chip := { s.chip with rcvState := 5, rcvData := [] } }.countTimeout)
  else .next s

/-! ### Timeouts of external handshakes (R453) -/

/-- Retries of a handshake: key 0 and 1 flash slots, 2 the record area, 16 + u regulator u. -/
def State.retryCount (s : State) (key : Nat) : Nat := SMap.get 0 s.chip.retries key
def State.setRetry (s : State) (key n : Nat) : State :=
  { s with chip := { s.chip with retries := SMap.put 0 s.chip.retries key n } }

/-- One expiry of a handshake that is retried up to 3 times; the answer says whether it has failed. -/
def State.expire (s : State) (key : Nat) : State × Bool :=
  let n := s.retryCount key
  let s := s.countTimeout
  if n < 3 then (s.setRetry key (n + 1), false) else (s.setRetry key 0, true)

/-- BOOT_FLASH_READ_TIMEOUT: a slot of which a read has failed four times is abandoned (R442). -/
def execBootFlashReadTimeout (slot : Nat) (s : State) : Res :=
  let reading := s.bootable && (decide (s.chip.stage = 2) || decide (s.chip.stage = 3)) && decide (s.chip.rcvState = 0)
  if slot < 2 ∧ reading = true ∧ s.ramCopy = none then
    let s := { s with chip := { s.chip with stage := 3 } }
    match s.expire slot with
    | (s, false) => .next s
    | (s, true) =>
      if slot = 0 then .next { s with chip := { s.chip with slot0 := 2 } }
      else .next { s with chip := { s.chip with slot1 := 2 } }
  else .next s

/-- A bus clear of a port (R449, R453). -/
def State.busCleared (s : State) (port : Nat) : State :=
  { s with chip := { s.chip with busClears := s.chip.busClears ++ [port] } }

/-- DETAIL of EXT_TIMEOUT: the row of R453's table counted from 0, and the unit (R462). -/
def State.timeoutAlarm (s : State) (row unit : Nat) : State :=
  s.alarm 0x0408 3 unit (detail [(32, row), (33, unit)])

/-- PMBUS_TIMEOUT: bus clear and up to 3 retries; then the regulator is marked unresponsive (R453). -/
def execPmbusTimeout (unit : Nat) (s : State) : Res :=
  match (s.busCleared 12).expire (16 + unit) with
  | (s, false) => .next s
  | (s, true) =>
    let l := s.chip.unresponsive
    .next ({ s with chip := { s.chip with unresponsive := if l.contains unit then l else l ++ [unit] } }.timeoutAlarm 0 unit)

/-- SMBUS_TIMEOUT of port k: bus clear; the transaction ends, and with it the wait of a pending switch (R449). -/
def execSmbusTimeout (unit : Nat) (s : State) : Res :=
  if unit < 12 then
    .next (s.each [2 * unit, 2 * unit + 1] State.pendingSwitch |>.busCleared unit |>.countTimeout)
  else .next s

/-- SPI_TIMEOUT of controller j. -/
def execSpiTimeout (unit : Nat) (s : State) : Res :=
  if unit < 6 then .next (s.each (pinGroup 6 (4 * unit)) State.pendingSwitch |>.countTimeout) else .next s

/-- RECORD_AREA_FLASH_TIMEOUT: after 3 retries an alarm, and the record is treated as absent (R453). -/
def execRecordAreaFlashTimeout (s : State) : Res :=
  match s.expire 2 with
  | (s, false) => .next s
  | (s, true) => .next (s.timeoutAlarm 4 0)

/-- CHIP_EXT_FAULT. -/
def State.clearExtFault (s : State) : State := { s with chip := { s.chip with extRange := 0, extTimeout := 0 } }
/-- EXT_FAULT_CLEAR: a write of any value. -/
def execExtFaultClear (_v : Word32) (s : State) : Res := .next s.clearExtFault

/-! ### Reports (R451, R452) -/

/-- A report passes the check of its row. -/
def reportOk (r : ExtReport) (ref : Int) : Bool :=
  match r.row with
  | 2 => decide (10 * r.value ≥ 9 * ref) && decide (10 * r.value ≤ 11 * ref)
  | 3 => decide (0 ≤ r.value) && decide (4 * r.value ≤ 5 * ref)
  | 4 => decide (-40 ≤ r.value) && decide (r.value ≤ 150)
  | 5 => decide (0 ≤ r.value) && decide (r.value ≤ 30000)
  | _ => decide (r.lo ≤ r.value) && decide (r.value ≤ ref)

/-- REGULATOR_REPORT: rows 2 to 6 of R451's table. Units 0 and 1 of row 2 are VDD_CORE of the dies, whose setpoint the governor
holds: within 10 mV of it a report confirms it (R452). -/
def execRegulatorReport (r : ExtReport) (s : State) : Res :=
  let core := decide (r.row = 2) && decide (r.unit < 2)
  let set : Int := (s.dieTherm r.unit).vcore.toNat
  let ref := if core then set else r.ref
  if r.row < 2 ∨ r.row > 6 then .next s
  else if reportOk r ref = true then
    if core && decide (r.value - set ≤ 10) && decide (set - r.value ≤ 10) then
      .next (s.modDie r.unit fun t => { t with vconfirmed := t.vcore })
    else .next s
  else
    let s := s.rangeFault r.row r.unit r.value
    if r.row = 5 then .next (s.alarm 0x0409 3 r.unit (detail [(34, r.unit)])) else .next s

end Sys2Proof.Machine
end

