-- ==== Sys2Proof/Machine/Burin.lean ====
section
/-! DEFINITION. Burin (R127–R148, R208–R213): the operand buffer, the accumulators, the group addition, and MSTAT, MMUL and
MREAD. -/

namespace Sys2Proof.Machine

/-! ### Accumulators (R131) -/

/-- The accumulator kinds: 0 binary32, 1 W64, 2 I32 (R210). -/
def accCount (kind : Nat) : Nat := if kind = 1 then 4096 else 16384

def Tile.accCell (x : Tile) (i : Nat) : AccCell := SMap.get .empty x.acc i
def Tile.setCell (x : Tile) (i : Nat) (v : AccCell) : Tile := { x with acc := SMap.put .empty x.acc i v }

/-- The value of an accumulator of floating-point kind. -/
def W64.toNum : W64 → Num
  | .nan => .nan false false 0
  | .inf s => .inf s
  | .zero s => .fin s 0 0
  | .num s m e => .fin s m.toNat (e - 63)

/-- A W64 value made of a free number (U2). -/
def freeW64 (n : Nat) : W64 :=
  match n % 8 with
  | 0 => .nan
  | 1 => .inf (n.testBit 3)
  | 2 => .zero (n.testBit 3)
  | _ => .num (n.testBit 3) (BitVec.ofNat 64 (2 ^ 63 + bits n 4 63)) ((bits n 67 15 : Int) - 16384)

/-- Read a binary32 accumulator; the value is free where another kind was written last (U2). -/
def Tile.accB32 (x : Tile) (i free : Nat) : Nat :=
  match x.accCell i with
  | .empty => 0
  | .b32 v => v.toNat
  | _ => free % 2 ^ 32

/-- Read an I32 accumulator (U2). -/
def Tile.accI32 (x : Tile) (i free : Nat) : Nat :=
  match x.accCell i with
  | .empty => 0
  | .i32 v => v.toNat
  | _ => free % 2 ^ 32

/-- Read a W64 accumulator (U2). -/
def Tile.accW64 (x : Tile) (i free : Nat) : W64 :=
  let part (k : Nat) : Bool := decide (x.accCell (4 * i + k) = .part)
  let none (k : Nat) : Bool := decide (x.accCell (4 * i + k) = .empty)
  match x.accCell (4 * i) with
  | .empty => if none 1 && none 2 && none 3 then .zero false else freeW64 free
  | .w64 v => if part 1 && part 2 && part 3 then v else freeW64 free
  | _ => freeW64 free

def Tile.setB32 (x : Tile) (i v : Nat) : Tile := x.setCell i (.b32 (BitVec.ofNat 32 v))
def Tile.setI32 (x : Tile) (i v : Nat) : Tile := x.setCell i (.i32 (BitVec.ofNat 32 v))
def Tile.setW64 (x : Tile) (i : Nat) (v : W64) : Tile :=
  (((x.setCell (4 * i) (.w64 v)).setCell (4 * i + 1) .part).setCell (4 * i + 2) .part).setCell (4 * i + 3) .part

/-! ### Rounding into an accumulator (R138) -/

/-- The direction of R138's rounding: RTZ, or RNE whose ties a set sticky bit breaks away from zero. -/
def accDir (rtz sticky : Bool) : Nat := if rtz then 2 else if sticky then 1 else 0

/-- Round into binary32: only OF is raised (R138, R141). DESIGN CHOICE (assumption 78): under RTZ, OF is judged on the rounded value, so
that a sum between the largest finite value and 2^128 raises none. -/
def roundB32 (rtz sticky s : Bool) (m : Nat) (e : Int) : CodeFlags :=
  if m = 0 then (0, 0)
  else let r := fmtB32.round (accDir rtz sticky) s m e; (r.1, r.2 &&& fOF)

/-- Round into W64 (R138). -/
def roundW64 (rtz sticky s : Bool) (m : Nat) (e : Int) : W64 × Nat :=
  if m = 0 then (.zero false, 0)
  else
    let q := (Nat.log2 m : Int) + e - 63
    let r := roundAt (accDir rtz sticky) s m e q
    let n := if r.1 = 2 ^ 64 then 2 ^ 63 else r.1
    let ex := if r.1 = 2 ^ 64 then q + 64 else q + 63
    if ex ≥ 16384 then (.inf s, fOF)
    else if ex < -16384 then (.zero s, 0)
    else (.num s (BitVec.ofNat 64 n) ex, 0)

/-! ### The group addition (R136–R140) -/

/-- What a group adds: a special outcome, nothing, or a sum S · 2^q with its sticky bit. -/
inductive GroupSum where
  | nan (nv : Bool)
  | inf (s : Bool)
  | zero
  | sum (S : Int) (q : Int) (sticky : Bool)

/-- The exact products of a group as sign, magnitude and exponent, zero ones left out (R136). -/
def products (scale : Int) : List (Num × Num) → List (Bool × Nat × Int)
  | [] => []
  | (.fin s1 m1 e1, .fin s2 m2 e2) :: r =>
    if m1 * m2 = 0 then products scale r else (s1 != s2, m1 * m2, e1 + e2 + scale) :: products scale r
  | _ :: r => products scale r

/-- The infinite products' signs. -/
def infSigns (l : List (Num × Num)) : List Bool :=
  l.filterMap fun p => match p with
    | (.inf s, y) => some (s != y.sign)
    | (x, .inf s) => some (x.sign != s)
    | _ => none

def Num.signals : Num → Bool
  | .nan _ sig _ => sig
  | _ => false

def Num.isInf : Num → Bool
  | .inf _ => true
  | _ => false

/-- One group's sum by the window of R137, or its special outcome by R139, in the order of its table. -/
def groupSum (scale : Int) (l : List (Num × Num)) : GroupSum :=
  if l.any fun p => p.1.signals || p.2.signals then .nan true
  else if l.any fun p => p.1.isNan || p.2.isNan then .nan false
  else if l.any fun p => (p.1.isInf && p.2.isZero) || (p.1.isZero && p.2.isInf) then .nan true
  else match infSigns l with
    | s :: r => if r.any (· ≠ s) then .nan true else .inf s
    | [] =>
      let ps := products scale l
      match ps with
      | [] => .zero
      | _ =>
        let lmax := ps.foldl (fun a p => max a ((Nat.log2 p.2.1 : Int) + p.2.2)) ((Nat.log2 (ps.headD (false, 1, 0)).2.1 : Int) + (ps.headD (false, 1, 0)).2.2)
        let q := lmax - 64
        let term (p : Bool × Nat × Int) : Int × Bool :=
          let mag := shiftInt p.2.1 (p.2.2 - q)
          (if p.1 then -(mag : Int) else mag, decide (dyLt mag q p.2.1 p.2.2))
        .sum (ps.map fun p => (term p).1).sum q (ps.any fun p => (term p).2)

/-- Add a group into a floating-point accumulator of value `acc` by a rounding function (R137–R139): none leaves the
accumulator unchanged. `nan` and `inf` make the specials. -/
def groupInto {α : Type} (acc : Num) (g : GroupSum) (nan : α) (inf : Bool → α) (rnd : Bool → Bool → Nat → Int → α × Nat) :
    Option (α × Nat) :=
  match acc with
  | .nan _ _ _ => some (nan, 0)
  | acc =>
    match g, acc with
    | .nan nv, _ => some (nan, if nv then fNV else 0)
    | .inf s, .inf t => if s = t then some (inf s, 0) else some (nan, fNV)
    | .inf s, _ => some (inf s, 0)
    | _, .inf _ => none
    | .zero, _ => none
    | .sum S q sticky, .fin s m e =>
      let k := min q e
      let a : Int := ((m <<< (e - k).toNat : Nat) : Int)
      let T : Int := (if s then -a else a) + S * ((2 ^ (q - k).toNat : Nat) : Int)
      some (rnd sticky (decide (T < 0)) T.natAbs k)
    | _, _ => none

/-! ### MSTAT (R209, R211) -/

/-- Columns of the rate row of a format (R127). -/
def rowCols (fmt : Nat) : Nat := if fmt ≤ 1 then 16 else 32
def isFourBit (fmt : Nat) : Bool := (elemOf fmt).width = 4
/-- Bits an element takes in the buffer (R130). -/
def bufBits (fmt : Nat) : Nat := if (elemOf fmt).width = 6 then 8 else (elemOf fmt).width

/-- N and K32 that an MSTAT takes (R209). -/
def statShape (f : MstatF) (o : EngOp) : Nat × Nat :=
  let n := min (bits (o.arg 2) 0 6) (rowCols f.fmt.toNat)
  let k := bits (o.arg 2) 16 6
  (n, if n = 0 then k else min k (min 64 (262144 / (32 * n * bufBits f.fmt.toNat))))

/-- The runs MSTAT reads: whole lines of elements, and its plates. -/
def statSpans (f : MstatF) (o : EngOp) : List Span :=
  let sh := statShape f o
  if sh.1 = 0 ∨ sh.2 = 0 then []
  else [(alignTo 128 (o.arg 0), lineBytes (elemOf f.fmt.toNat).width (32 * sh.2 * sh.1)),
        (o.arg 1, if isGroup f.fmt.toNat then sh.1 * sh.2 else 0)]

/-- MSTAT. -/
def State.mstatEffect (s : State) (t : TileId) (o : EngOp) (f : MstatF) : EngOut :=
  let sh := statShape f o
  if sh.1 = 0 ∨ sh.2 = 0 then .done s
  else s.engRead t o.ctx (statSpans f o) fun s bytes =>
    let w := (elemOf f.fmt.toNat).width
    let n := 32 * sh.2 * sh.1
    let buf : OpBuf :=
      { n := sh.1, k32 := sh.2, fmt := f.fmt
        elems := (List.range n).map fun i => BitVec.ofNat 16 (elemAt w true bytes i)
        plates := bytes.drop (lineBytes w n) }
    .done (s.modTile t fun x => { x with opbuf := buf })

/-- The stationary element (k, n), with its plate (R209). -/
def OpBuf.value (b : OpBuf) (k n : Nat) : Num :=
  let code := (b.elems.getD (n * 32 * b.k32 + k) 0).toNat
  if isGroup b.fmt.toNat then
    (elemOf b.fmt.toNat).decodeGroup (b.plates.getD (n * b.k32 + k / 32) 0).toNat code
  else (elemOf b.fmt.toNat).decode code

/-! ### MMUL (R210) -/

def shBase (o : EngOp) : Nat := bits (o.arg 2) 0 14
def shRows (o : EngOp) : Nat := bits (o.arg 2) 16 16
def shPitch (o : EngOp) : Nat := bits (o.arg 2) 32 21

/-- Where the moving operand's row m starts, TRANS = 0: an aligned address, and the elements to skip there. -/
def rowStart (f : MmulF) (o : EngOp) (k m : Nat) : Nat × Nat :=
  let w := (elemOf f.fmt.toNat).width
  let p := shPitch o
  if w = 6 then
    let i := if p = 0 then m * k else 0
    (o.arg 0 + m * p + i / 128 * 128, i % 128)
  else (alignTo (4 * w) (o.arg 0 + (if p = 0 then m * k * w / 8 else m * p)), 0)

/-- Where the moving element (m, k) lies when TRANS = 1 (R87, R210). DESIGN CHOICE (assumption 77): a PITCH below one line is taken as
one line, and an odd RA of 8-bit elements keeps its bit 0. -/
def transElem (f : MmulF) (o : EngOp) (m k : Nat) : Nat :=
  let w := (elemOf f.fmt.toNat).width
  alignTo (w / 8) (o.arg 0 + k * (128 * max 1 (shPitch o / 128)) + m * (w / 8))

/-- The runs that hold elements k0 to k0 + n − 1 of moving row m. -/
def moveSpans (f : MmulF) (o : EngOp) (K m k0 n : Nat) : List Span :=
  let w := (elemOf f.fmt.toNat).width
  if f.trans then (List.range n).map fun i => (transElem f o m (k0 + i), w / 8)
  else
    let st := rowStart f o K m
    if w = 6 then
      let i := st.2 + k0
      [(st.1 + i / 128 * 128 + i % 128 / 4 * 3, denseBytes 6 n)]
    else [(st.1 + k0 * w / 8, denseBytes w n)]

/-- The whole lines that Burin reads for some runs (R133). -/
def readLines (l : List Span) : List Span :=
  l.flatMap fun r => if r.2 = 0 then [] else
    (List.range ((r.1 + r.2 - 1) / 128 - r.1 / 128 + 1)).map fun i => ((r.1 / 128 + i) * 128, 128)

/-- The plate of moving row m, group g: its address. -/
def movePlate (o : EngOp) (k32 m g : Nat) : Nat := o.arg 1 + m * k32 + g

/-- The scratchpad bytes MMUL reads (R206). -/
def mmulSpans (f : MmulF) (o : EngOp) (b : OpBuf) : List Span :=
  let M := shRows o
  if b.n = 0 ∨ b.k32 = 0 ∨ M = 0 then []
  else
    (List.range M).flatMap (fun m =>
      (List.range b.k32).flatMap fun g => moveSpans f o (32 * b.k32) m (32 * g) 32) ++
    (if isGroup f.fmt.toNat then [(o.arg 1, M * b.k32)] else [])

/-- Elements 32g to 32g + 31 of moving row m, decoded. -/
def Tile.moveGroup (x : Tile) (f : MmulF) (o : EngOp) (b : OpBuf) (m g : Nat) : List Num :=
  let w := (elemOf f.fmt.toNat).width
  let bytes := x.gather o.ctx (moveSpans f o (32 * b.k32) m (32 * g) 32)
  let plate := (x.gather o.ctx [(movePlate o b.k32 m g, 1)]).map BitVec.toNat
  (List.range 32).map fun i =>
    let code := elemAt w false bytes i
    if isGroup f.fmt.toNat then (elemOf f.fmt.toNat).decodeGroup (plate.headD 0) code
    else (elemOf f.fmt.toNat).decode code

/-- An H6 moving operand that does not start on a line: undefined case U3 (R469). -/
def mmulU3 (f : MmulF) (o : EngOp) : Bool :=
  (elemOf f.fmt.toNat).width = 6 && (decide (o.arg 0 % 128 ≠ 0) || (decide (shRows o > 1) && decide (shPitch o % 128 ≠ 0)))

/-- The running result of a matrix instruction: the tile, the flags, and free values taken. -/
abbrev MmulAcc := Tile × Nat × Nat

/-- One group into one accumulator (R132, R137–R140). `base` is the number of the first free value. -/
def mmulCell (f : MmulF) (b : OpBuf) (base : Nat) (moving : List Num) (i g n : Nat) (r : MmulAcc) : MmulAcc :=
  let x := r.1
  let start := f.zero && decide (g = 0)
  let free := Config.freeValue (base + r.2.2)
  let pairs := (numbered 0 moving).map fun p => (p.2, b.value (32 * g + p.1) n)
  match f.acc.toNat with
  | 2 =>
    let old : Int := if start then 0 else x.accI32 i free
    let S : Int := (pairs.map fun p => match p with
      | (.fin s1 m1 _, .fin s2 m2 _) => if s1 = s2 then ((m1 * m2 : Nat) : Int) else -((m1 * m2 : Nat) : Int)
      | _ => 0).sum
    (x.setI32 i (((old + S) % 4294967296).toNat), r.2.1, r.2.2 + 1)
  | 1 =>
    let old := if start then .zero false else x.accW64 i free
    match groupInto old.toNum (groupSum f.scale.toInt pairs) W64.nan W64.inf (fun st s m e => roundW64 f.rtz st s m e) with
    | some v => (x.setW64 i v.1, r.2.1 ||| v.2, r.2.2 + 1)
    | none => (x.setW64 i old, r.2.1, r.2.2 + 1)
  | _ =>
    let old := if start then 0 else x.accB32 i free
    match groupInto (fmtB32.decode old) (groupSum f.scale.toInt pairs) fmtB32.defNan fmtB32.infCode
      (fun st s m e => roundB32 f.rtz st s m e) with
    | some v => (x.setB32 i v.1, r.2.1 ||| v.2, r.2.2 + 1)
    | none => (x.setB32 i old, r.2.1, r.2.2 + 1)

/-- Every column of one slice, its groups in increasing k. -/
def mmulSlice (f : MmulF) (o : EngOp) (b : OpBuf) (base : Nat) (src : Tile) (m : Nat) (gs : List Nat) (r : MmulAcc) :
    MmulAcc :=
  gs.foldl (fun r g =>
    let moving := src.moveGroup f o b m g
    (List.range b.n).foldl (fun r n =>
      mmulCell f b base moving ((shBase o + m * b.n + n) % accCount f.acc.toNat) g n r) r) r

/-- The slices of the instruction in order: row and groups (R127, R128, R133). -/
def mmulSlices (f : MmulF) (o : EngOp) (b : OpBuf) : List (Nat × List Nat) :=
  let pairs := isFourBit f.fmt.toNat && isFourBit b.fmt.toNat
  (List.range (shRows o)).flatMap fun m =>
    if pairs then (List.range (ceilDiv b.k32 2)).map fun h =>
      (m, if 2 * h + 1 < b.k32 then [2 * h, 2 * h + 1] else [2 * h])
    else (List.range b.k32).map fun g => (m, [g])

/-- The element lines a slice is taken from: whole lines, or the transposed line that its 32 elements share with the other 32 of 64
(R87, R133). -/
def sliceLines (f : MmulF) (o : EngOp) (b : OpBuf) (sl : Nat × List Nat) : List Span :=
  let g0 := sl.2.headD 0
  let K := 32 * b.k32
  if f.trans then moveSpans f o K sl.1 (64 * (g0 / 2)) (min 64 (K - 64 * (g0 / 2)))
  else readLines (moveSpans f o K sl.1 (32 * g0) (32 * sl.2.length))

/-- The plate lines of a slice. -/
def slicePlates (f : MmulF) (o : EngOp) (b : OpBuf) (sl : Nat × List Nat) : List Span :=
  if isGroup f.fmt.toNat then readLines (sl.2.map fun g => (movePlate o b.k32 sl.1 g, 1)) else []

/-- A sequence without the elements that repeat the one before. -/
def dropRepeats {α : Type} [DecidableEq α] : List α → List α
  | a :: b :: r => if a = b then dropRepeats (b :: r) else a :: dropRepeats (b :: r)
  | l => l

/-- The slices before the first that is taken from a line with an uncorrectable word, and the word (R100, R133). -/
def mmulGood (f : MmulF) (o : EngOp) (b : OpBuf) (src : Tile) : List (Nat × List Nat) → List (Nat × List Nat) × Option Nat
  | [] => ([], none)
  | sl :: rest =>
    match src.gatherUe o.ctx (sliceLines f o b sl ++ slicePlates f o b sl) with
    | some w => ([], some w)
    | none => let r := mmulGood f o b src rest; (sl :: r.1, r.2)

/-- The lines that WR0 reads for some slices, each once while the moving buffer holds it (R133). -/
def mmulReads (f : MmulF) (o : EngOp) (b : OpBuf) (l : List (Nat × List Nat)) : List Span :=
  (dropRepeats (l.map fun sl => sliceLines f o b sl)).flatten ++ dropRepeats (l.flatMap fun sl => slicePlates f o b sl)

/-- The accumulators of an output whose operand was undefined take free values of their kind (U3). -/
def mmulFree (f : MmulF) (o : EngOp) (b : OpBuf) (base : Nat) (x : Tile) : MmulAcc :=
  (List.range (shRows o * b.n)).foldl (fun r j =>
    let i := (shBase o + j) % accCount f.acc.toNat
    let v := Config.freeValue (base + r.2.2)
    (match f.acc.toNat with
      | 2 => r.1.setI32 i v
      | 1 => r.1.setW64 i (freeW64 v)
      | _ => r.1.setB32 i v, r.2.1, r.2.2 + 1)) (x, 0, 0)

/-- MMUL. -/
def State.mmulEffect (s : State) (t : TileId) (o : EngOp) (f : MmulF) : EngOut :=
  let x := s.tile t
  let b := x.opbuf
  if b.n = 0 ∨ b.k32 = 0 ∨ shRows o = 0 then .done s
  else
    let good := mmulGood f o b x (mmulSlices f o b)
    let r := if mmulU3 f o then mmulFree f o b s.free x
             else good.1.foldl (fun r sl => mmulSlice f o b s.free x sl.1 sl.2 r) (x, 0, 0)
    let s := s.gatherCe t o.ctx (mmulReads f o b good.1)
    let s := s.modTile t fun x => { x with acc := r.1.acc }
    let s := { s with free := s.free + r.2.2 }
    match (if mmulU3 f o then none else good.2) with
    | none => .done s r.2.1
    | some w => { st := s, flags := 0, ue := some w }

/-! ### MREAD (R143, R212) -/

/-- Bytes of an output element, by kind and DSEL. -/
def mreadWidth (kind dsel : Nat) : Nat :=
  match kind, dsel with
  | 1, 0 => 8
  | 0, 1 | 0, 2 => 2
  | _, _ => 4

/-- Columns N of an MREAD, and its rows; lines per row; bytes from row to row (R212). -/
def mreadCols (o : EngOp) : Nat := min 32 (bits (o.arg 2) 56 6)
def mreadLines (f : MreadF) (o : EngOp) : Nat := ceilDiv (mreadCols o * mreadWidth f.acc.toNat f.dsel.toNat) 128
def mreadPitch (f : MreadF) (o : EngOp) : Nat :=
  if shPitch o / 128 = 0 then 128 * mreadLines f o else alignTo 128 (shPitch o)

/-- The scale vectors are used (R212). -/
def mreadScaled (f : MreadF) : Bool := decide (f.acc = 1) && decide (f.rsc ≠ 0)

/-- The runs MREAD reads and writes. DESIGN CHOICE (assumption 77): the scale vectors are read from the address given, odd or not. -/
def mreadReads (f : MreadF) (o : EngOp) : List Span :=
  if mreadScaled f then [(bits (o.arg 1) 0 21, 2 * shRows o), (bits (o.arg 1) 32 21, 2 * mreadCols o)] else []
def mreadRows (f : MreadF) (o : EngOp) : List Span :=
  (List.range (shRows o)).map fun m => (alignTo 128 (o.arg 0) + m * mreadPitch f o, 128 * mreadLines f o)

/-- One output element: its code and flags (R143). `sc` is the sum of its scale entries, or none for a marked row or
column. -/
def mreadElem (f : MreadF) (x : Tile) (i free : Nat) (sc : Option Int) : CodeFlags :=
  let dir := if f.rtz then 2 else 0
  let out (F : FpFmt) (v : Num) : CodeFlags :=
    match v with
    | .nan _ _ _ => (F.defNan, 0)
    | v => let r := F.convert (.dir dir) false v; (r.1, r.2 &&& (fNV + fOF))
  match f.acc.toNat, f.dsel.toNat with
  | 2, 0 => (x.accI32 i free, 0)
  | 2, _ => out fmtB32 (intDecode 32 (x.accI32 i free))
  | 1, d =>
    let F := if d = 0 then fmtB64 else fmtB32
    match sc with
    | none => (F.defNan, fNV)
    | some k => out F ((x.accW64 i free).toNum.scale k)
  | _, 0 => (x.accB32 i free, 0)
  | _, d => out (if d = 1 then fmtB16 else fmtBf16) (fmtB32.decode (x.accB32 i free))

/-- Set an accumulator to +0 of its kind. -/
def Tile.clearAcc (x : Tile) (kind i : Nat) : Tile :=
  match kind with
  | 1 => x.setW64 i (.zero false)
  | 2 => x.setI32 i 0
  | _ => x.setB32 i 0

/-- MREAD. It writes its lines to the address given: no field names a circular region (assumption 79). -/
def State.mreadEffect (s : State) (t : TileId) (o : EngOp) (f : MreadF) : EngOut :=
  let M := shRows o
  let N := mreadCols o
  if M = 0 ∨ N = 0 then .done s
  else s.engRead t o.ctx (mreadReads f o) fun s sv =>
    let ent (off : Nat) : Int := sintOf 16 (fieldAt sv off 2)
    let scale (m n : Nat) : Option Int :=
      if mreadScaled f then
        (if ent (2 * m) = -32768 ∨ ent (2 * M + 2 * n) = -32768 then none else some (ent (2 * m) + ent (2 * M + 2 * n)))
      else some 0
    let wd := mreadWidth f.acc.toNat f.dsel.toNat
    let base := s.free
    let row (r : State × Nat) (m : Nat) : State × Nat :=
      let cell (q : Tile × Nat × List Byte) (n : Nat) : Tile × Nat × List Byte :=
        let i := (shBase o + m * N + n) % accCount f.acc.toNat
        let v := mreadElem f q.1 i (Config.freeValue (base + m * N + n)) (scale m n)
        (if f.clear then q.1.clearAcc f.acc.toNat i else q.1, q.2.1 ||| v.2, q.2.2 ++ leBytes wd v.1)
      let q := (List.range N).foldl cell (r.1.tile t, r.2, [])
      let s := r.1.modTile t fun x => { x with acc := q.1.acc }
      (s.engWrite t o.ctx (alignTo 128 (o.arg 0) + m * mreadPitch f o) (padTo (128 * mreadLines f o) q.2.2), q.2.1)
    let r := (List.range M).foldl row (s, 0)
    .done { r.1 with free := base + M * N } r.2

/-! ### Issue -/

def execMstat (t : TileId) (w : WaitSig) (f : MstatF) (s : State) : Res :=
  s.issueEng t 1 (.mstat t w f) [f.ra, f.rp, f.rsh]
def execMmul (t : TileId) (w : WaitSig) (f : MmulF) (s : State) : Res :=
  s.issueEng t 1 (.mmul t w f) [f.ra, f.rp, f.rsh]
def execMread (t : TileId) (w : WaitSig) (f : MreadF) (s : State) : Res :=
  s.issueEng t 1 (.mread t w f) [f.rd, f.rsc, f.rsh]

end Sys2Proof.Machine
end

