-- ==== Sys2Proof/Machine/Recovery.lean ====
section
/-! DEFINITION. Errors of the device and the handlers that recover from them (R29, R454–R459, R500, R501), the delivery of alarms
(R467) and the count of refused accesses. -/

namespace Sys2Proof.Machine

/-! ### Lockstep (R29) -/

/-- A warm reset with FABRIC = 0 as chip-level recovery: the chip's window stays open over it, until READY (R456, R459). -/
def State.chipWarmReset (s : State) (rec1 rec2 : Option (BitVec 32)) : State :=
  let s := s.warmReset 4 false
  let w : Window := { level := 3, unit := 0, tile := 0, ctx := false, opened := s.time, rec1 := rec1, rec2 := rec2,
                      program := false, action := 6 }
  { s with log := { s.log with windows := [w] } }

/-- LOCKSTEP_MISMATCH: recorded, and a warm reset; within a reset it is absorbed (R458). -/
def execLockstepMismatch (s : State) : Res :=
  if s.chip.powered = false ∨ s.chip.stage = 1 then .next s
  else if s.inReset then .next (s.record 0x0401 1 3 0 false 0 6 0 true)
  else
    let idx := s.log.next
    .next ((s.record 0x0401 1 3 0 false 0 6 0).chipWarmReset (some idx) none)

/-! ### Parity (R455) -/

/-- ENGINE_PARITY_ERROR: in the context whose work read the bits; for a per-tile store, in the active context. -/
def execEngineParityError (t : TileId) (ctx : Bool) (eng store : Nat) (s : State) : Res :=
  let perTile := decide (1 ≤ store) && decide (store ≤ 4)
  let who := if perTile then (s.tile t).active else some ctx
  match who with
  | some c =>
    if s.validTile t ∧ store ≤ 5 ∧ (s.ctx t c).phase ≠ .empty then
      .next (s.hwStop 0x0202 t c (detail [(32, eng), (33, store)]) false)
    else .next s
  | none => .next s

/-! ### Windows (R456–R459, R500, R501) -/

/-- A window completes: a RECOVERY record, but for one that a program fault opened and whose stop completed (R500). -/
def State.windowDone (s : State) (w : Window) : State :=
  let s := if w.program then s else s.recoveryRecord w w.rec2 0
  s.closeWindow w.level w.unit

/-- INDEX of the record that opened a window. -/
def Window.origin (w : Window) : Nat := (w.rec1.getD 0xFFFFFFFF).toNat

/-- A cluster sweep: every tile of the cluster is reset, and its controller starts again (R456). -/
def State.clusterSweep (s : State) (t : TileId) (origin : Nat) : State :=
  let s := (s.tilesReset (clusterTiles (clusterOf t)) origin).setCause 6
  s.modCluster (clusterOf t) fun c =>
    { Cluster.reset with spareFailed := c.spareFailed, secondFail := c.secondFail, pend := c.pend, active := c.active,
                         pendReason := c.pendReason, errEscalated := c.errEscalated, errWindows := c.errWindows
                         spareSp := c.spareSp, spareErr := c.spareErr }

/-- The action of a window's level ends, well or not, and with a cluster sweep the reset of the seventeenth position (R34, R456,
R457, R501). -/
def State.actionDone (s : State) (w : Window) (ok spareOk : Bool) : State :=
  match w.level with
  | 0 => if ok then s.windowDone w else s.escalateWindow w none
  | 1 =>
    let s := (s.tilesReset [w.tile] w.origin).setCause 6
    let s := if ok then s else s.tileFailed w.tile 1
    s.windowDone w
  | 2 =>
    if ok then
      let s := s.clusterSweep w.tile w.origin
      (if spareOk then s else s.spareFails (clusterOf w.tile) 0).windowDone w
    else s.escalateWindow w none
  | _ =>
    if w.action = 6 then s
    else if ok then ((s.regionReset (regionOf w.tile) w.origin).setCause 5).windowDone w
    else s.chipWarmReset w.rec1 w.rec2

/-- RECOVERY_ACTION_DONE. Chip-level recovery stalls while the management bus is held (R311). -/
def execRecoveryActionDone (hd : HandlerId) (ok spareOk : Bool) (s : State) : Res :=
  match s.windowAt hd.level hd.unit with
  | some w => .next (if w.level = 3 ∧ s.busHeld = true then s else s.actionDone w ok spareOk)
  | none => .next s

/-- RECOVERY_WINDOW_TIMEOUT: the bound of R456 passes and the recovery is escalated; a tile reset that has not completed is a
failed tile (R501), where the cluster controller has stopped answering that is CLUSTER_CTRL (R457), and a region reset that
overruns is replaced by a warm reset (R457). A program fault's window first overruns its stop (R500). -/
def execRecoveryWindowTimeout (hd : HandlerId) (silent : Bool) (s : State) : Res :=
  match s.windowAt hd.level hd.unit with
  | some w =>
    match w.level with
    | 0 => if w.program then .next s else .next (s.escalateWindow w none)
    | 1 =>
      if silent then
        let idx := s.log.next
        .next ((s.record 0x0304 1 2 (regionOf w.tile) false 0 4 (detail [(32, clusterOf w.tile % 16)])).escalateWindow w (some idx))
      else .next ((s.tileFailed w.tile 0).escalateWindow w none)
    | 2 => .next (s.escalateWindow w none)
    | _ => if w.action = 6 then .next s else .next (s.chipWarmReset w.rec1 w.rec2)
  | none => .next s

/-- QUIESCE_TIMEOUT: a stop has not completed within 2 µs; it is recorded and the context is reset (R456, R500). -/
def execQuiesceTimeout (t : TileId) (ctx : Bool) (s : State) : Res :=
  match s.windowAt 0 t.toNat with
  | some w =>
    if w.ctx = ctx ∧ w.action = 1 then
      let idx := s.log.next
      let s := s.record 0x0203 1 0 t.toNat ctx (s.posOf t) 2 0
      let w' : Window := { w with program := false, action := 2, rec1 := w.rec1 <|> some idx }
      let s := { s with log := { s.log with windows := updateWhere (fun x => x = w) (fun _ => w') s.log.windows } }
      .next ((s.ctxReset t ctx false idx.toNat).setCause 7)
    else .next s
  | none => .next s

/-! ### Alarms and counts -/

/-- ALARM_DELIVERY: the oldest staged alarm reaches the log (R467). -/
def execAlarmDelivery (s : State) : Res :=
  match s.log.staged with
  | a :: _ => .next (s.deliverAlarm a)
  | [] => .next s

/-- RAS_HOSTERR_CLEAR: a write of any value. -/
def execRasHosterrClear (_v : Word32) (s : State) : Res := .next { s with log := { s.log with hostErr := 0 } }

end Sys2Proof.Machine
end

