-- ==== Sys2Proof/Machine/Registers.lean ====
section
/-! DEFINITION. BAR0: what each register of the blocks of R44 reads and what a write of it does (R12–R16, R44–R46, R444), the
64-bit pairs (R13), and what ends a domain's switch-on (R390). -/

namespace Sys2Proof.Machine

/-- The state after an outcome; a write that stops nothing leaves the state as it was otherwise. -/
def nextOr (s : State) (r : Res) : State :=
  match r with
  | .next t => t
  | _ => s

/-- Register j of an array of 4-byte registers that begins at an offset. -/
def regIndex (o base n : Nat) : Option Nat := if base ≤ o ∧ o < base + 4 * n ∧ o % 4 = 0 then some ((o - base) / 4) else none

/-! ### CHIP -/

/-- CHIP_BOOT_STATUS. -/
def State.bootStatus (s : State) : Nat :=
  let c := s.chip
  b2n s.host.ready * 2 ^ 31 + b2n s.log.fenced * 2 ^ 30 + c.source.toNat * 2 ^ 28 + c.stage.toNat * 2 ^ 24 +
    c.fail.toNat * 65536 + c.failUnit.toNat * 256 + c.slot0.toNat * 16 + c.slot1.toNat

/-- CHIP_MFP_SEL_n. -/
def Pin.selWord (p : Pin) : Nat :=
  b2n (p.want.isSome || p.parked.isSome) * 2 ^ 31 + p.filter.toNat * 4096 + (p.want.getD p.func).toNat

/-- What a register of the CHIP block reads. -/
def State.chipPeek (s : State) (o : Nat) : Nat :=
  match o with
  | 0x000 => 0x00080000 + s.fuses.stepping.toNat * 256 + b2n s.fuses.grade288
  | 0x004 => s.chip.fwVer.toNat
  | 0x008 => s.chip.imageSvn.toNat * 65536 + s.fuses.minSvn.toNat % 65536
  | 0x00C => s.bootStatus
  | 0x010 => b2n s.chip.warmBusy * 2 ^ 29
  | 0x014 => b2n s.regionResetBusy * 2 ^ 30
  | 0x018 => b2n s.tileResetBusy * 2 ^ 30
  | 0x020 => s.chip.cause.toNat
  | 0x030 => s.chip.rcvState.toNat * 2 ^ 27
  | 0x180 => s.chip.gpioOut.toNat
  | 0x184 => (List.range 24).foldl (fun a n => a + b2n (s.pin n).level * 2 ^ n) 0
  | 0x200 => s.chip.extRange.toNat * 65536 + s.chip.extTimeout.toNat
  | o => match regIndex o 0x100 24 with
    | some n => (s.pin n).selWord
    | none => 0

/-- A write of a register of the CHIP block. -/
def State.chipWrite (s : State) (o : Nat) (v : Word32) : State :=
  match o with
  | 0x010 => s.writeChipReset v
  | 0x014 => s.writeResetRegion v
  | 0x018 => s.writeResetTile v
  | 0x01C => s.writeResetKey v
  | 0x020 => { s with chip := { s.chip with cause := s.chip.cause &&& ~~~ (v.extractLsb' 0 9) } }
  | 0x030 => s.writeRcvCtl v
  | 0x034 => s.rcvWord v
  | 0x180 => { s with chip := { s.chip with gpioOut := v.extractLsb' 0 24 } }
  | 0x200 => s.clearExtFault
  | o => match regIndex o 0x100 24 with
    | some n => s.writeMfpSel n v false
    | none => s

/-! ### CMDQ, with the MSI-X table and PBA -/

/-- STATE of CMDQ_QSTAT_q. -/
def qstateCode (q : QState) : Nat :=
  match q with
  | .none => 0
  | .active => 1
  | .error => 2
  | .deleting => 3

/-- CMDQ_QSTAT_q. -/
def CmdQueue.stat (q : CmdQueue) : Nat :=
  qstateCode q.state * 2 ^ 30 + (if q.state = .error then q.cause.toNat else 0) * 2 ^ 27 + q.cqTail % 4096 * 4096 + q.sqHead % 4096

def State.cmdqPeek (s : State) (o : Nat) : Nat :=
  match o with
  | 0x00 => b2n s.host.adminEn * 2 ^ 31
  | 0x04 => b2n s.host.ready * 2 ^ 31 + b2n s.log.fenced * 2 ^ 30 + s.host.major.toNat
  | 0x20 => s.host.adminSize.toNat
  | 0x24 => s.host.adminVec.toNat
  | o => match regIndex o 0x1000 64, regIndex o 0x80000 8192, regIndex o 0x88000 64 with
    | some q, _, _ => (s.queue q).stat
    | _, some i, _ => bits (SMap.get msixReset s.host.msix (i / 4)).toNat (32 * (i % 4)) 32
    | _, _, some i => (List.range 32).foldl (fun a b => a + b2n (s.host.msixPend.contains (32 * i + b)) * 2 ^ b) 0
    | _, _, _ => 0

/-- A write of a word of the MSI-X table; a pending vector that is unmasked is sent (R411). -/
def State.writeMsix (s : State) (i : Nat) (v : Word32) : State :=
  let n := i / 4
  let old := SMap.get msixReset s.host.msix n
  let sh := 32 * (i % 4)
  let new : BitVec 128 := (old &&& ~~~ (BitVec.ofNat 128 (0xFFFFFFFF * 2 ^ sh))) ||| BitVec.ofNat 128 (v.toNat * 2 ^ sh)
  let s := { s with host := { s.host with msix := SMap.put msixReset s.host.msix n new } }
  if s.host.msixPend.contains n && !new.getLsbD 96 then
    { s with host := { s.host with msixPend := s.host.msixPend.filter fun k => k ≠ n } }.emit (.msix n)
  else s

def State.cmdqWrite (s : State) (o : Nat) (v : Word32) : State :=
  match o with
  | 0x00 => s.writeAdminCtl v
  | 0x20 => if s.host.adminEn then s else { s with host := { s.host with adminSize := v &&& 0x1FFF1FFF } }
  | 0x24 => if s.host.adminEn then s else { s with host := { s.host with adminVec := v } }
  | o => match regIndex o 0x80000 8192 with
    | some i => s.writeMsix i v
    | none => s

/-! ### PWR -/

/-- PWR_THERM_STATUS. -/
def State.thermStatus (s : State) : Nat :=
  (s.dieTherm 1).cap.toNat * 2 ^ 24 + (s.dieTherm 0).cap.toNat * 65536 + (s.dieTherm 1).maxT.toNat * 256 + (s.dieTherm 0).maxT.toNat

/-- The selected phase record's words. -/
def PhaseRec.word0 (p : PhaseRec) : Nat :=
  p.d.toNat * 65536 + p.cls.toNat * 8192 + b2n p.floor * 4096 + p.k.toNat * 64 + p.q.toNat
def PhaseRec.word1 (p : PhaseRec) : Nat := p.n.toNat * 2 ^ 24 + p.dur.toNat

/-- PWR_DOM_STATE_w. -/
def State.domState (s : State) (w : Nat) : Nat :=
  (List.range 32).foldl (fun a b => a + b2n (decide (32 * w + b < 207) && s.domainOn (32 * w + b)) * 2 ^ b) 0

def State.pwrPeek (s : State) (o : Nat) : Nat :=
  match o with
  | 0x000 => s.power.cap.toNat
  | 0x004 => s.power.govCfg.toNat
  | 0x008 => s.pwrStatus
  | 0x020 => s.power.excessCount.toNat
  | 0x028 => s.power.stretchPkg.toNat
  | 0x030 => s.power.droopCfg.toNat
  | 0x060 => s.power.thermCfg.toNat
  | 0x064 => s.thermStatus
  | 0x068 => s.power.thermTrip.toNat
  | 0x080 => (s.dieTherm 0).vcore.toNat
  | 0x084 => (s.dieTherm 1).vcore.toNat
  | 0x100 => s.power.domCfg.toNat
  | 0x150 => s.power.domRefuse.toNat
  | 0x300 => s.power.recIdx.toNat
  | 0x304 => (s.phaseRec s.power.recIdx.toNat).word0
  | 0x308 => (s.phaseRec s.power.recIdx.toNat).word1
  | o => match regIndex o 0x40 8, regIndex o 0x110 7, regIndex o 0x130 7, regIndex o 0x200 5 with
    | some z, _, _, _ => (SMap.get 0 s.power.weights z).toNat
    | _, some w, _, _ => s.domState w
    | _, _, some w, _ => (s.domReqWord w).toNat
    | _, _, _, some j => s.modelConst j
    | _, _, _, _ => match regIndex o 0x400 43, regIndex o 0x500 43 with
      | some k, _ => s.vf 0 k
      | _, some k => s.vf 1 k
      | _, _ => 0

def State.pwrWrite (s : State) (o : Nat) (v : Word32) : State :=
  match o with
  | 0x000 => s.writeCap v
  | 0x004 => (s.govWrite v).setVoltages.retarget
  | 0x020 => nextOr s (execPwrExcessClear v s)
  | 0x030 => { s with power := { s.power with droopCfg := v &&& 0x00000F0F } }
  | 0x060 => { s with power := { s.power with thermCfg := v &&& 0x0000FFFF } }
  | 0x100 => { s with power := { s.power with domCfg := v &&& 0x8000FFFF } }
  | 0x150 => if v.getLsbD 31 then { s with power := { s.power with domRefuse := s.power.domRefuse &&& 0x7FFFFFFF } } else s
  | 0x300 => { s with power := { s.power with recIdx := v &&& 0x000007FF } }
  | o => match regIndex o 0x40 8, regIndex o 0x130 7 with
    | some z, _ => { s with power := { s.power with weights := SMap.put 0 s.power.weights z (v.extractLsb' 0 8) } }
    | _, some w => s.writeDomReq w v
    | _, _ => s

/-! ### ARB -/

/-- The class and requester of a map register, at offsets from the first. -/
def mapReg (o base : Nat) : Option (Nat × Nat) :=
  let c := (o - base) / 0x800
  let i := (o - base) % 0x800 / 4
  if base ≤ o ∧ o % 4 = 0 ∧ c < 9 ∧ i < arbInputs c then some (c, i) else none

/-- ARB_COMMIT_STATUS. -/
def Arb.commitStatus (a : Arb) : Nat :=
  b2n a.busy * 2 ^ 31 + b2n a.refused * 2 ^ 30 + b2n a.bad * 2 ^ 29 + a.badClass.toNat * 2 ^ 24 + a.waitClass * 65536 + a.commits.toNat

def State.arbPeek (s : State) (o : Nat) : Nat :=
  let a := s.arb
  match o with
  | 0x04 => a.commitStatus
  | 0x08 => a.shift.toNat
  | 0x0C => a.ageNow.toNat
  | 0x10 => b2n a.holdAbandoned * 4 + b2n a.granted * 2 + b2n a.hold
  | o => match regIndex o 0x100 9, regIndex o 0x80100 9, regIndex o 0x6000 9 with
    | some c, _, _ => (SMap.get 8 a.nShadow c).toNat
    | _, some c, _ => (SMap.get 8 a.nActive c).toNat
    | _, _, some c => (SMap.get 0 a.stat c).toNat
    | _, _, _ => match mapReg o 0x1000, mapReg o 0x81000 with
      | some r, _ => mapOf a.mapShadow r.1 r.2
      | _, some r => mapOf a.mapActive r.1 r.2
      | _, _ => 0

def State.arbWrite (s : State) (o : Nat) (v : Word32) : State :=
  let a := s.arb
  match o with
  | 0x00 => if v.getLsbD 0 then s.arbCommit else s
  | 0x04 => { s with arb := { a with refused := a.refused && !v.getLsbD 30, bad := a.bad && !v.getLsbD 29 } }
  | 0x08 => { s with arb := { a with shift := v.extractLsb' 0 3 } }
  | 0x10 => nextOr s (execArbMgmtHold v s)
  | o => match regIndex o 0x100 9, regIndex o 0x6000 9, mapReg o 0x1000 with
    | some c, _, _ => { s with arb := { a with nShadow := SMap.put 8 a.nShadow c (v.extractLsb' 0 7) } }
    | _, some c, _ =>
      if v.getLsbD 31 then { s with arb := { a with stat := SMap.put 0 a.stat c (SMap.get 0 a.stat c &&& 0x7FFFFFFF) } } else s
    | _, _, some r => { s with arb := { a with mapShadow := mapPut a.mapShadow r.1 r.2 (v.extractLsb' 0 9) } }
    | _, _, _ => s

/-! ### RAS and DBG -/

/-- RAS_STATUS. -/
def State.rasStatus (s : State) : Nat :=
  let open' (l : Nat) : Nat := (s.log.windows.filter fun w => w.level = l).length
  b2n s.log.fenced * 2 ^ 31 + b2n (decide (open' 3 ≠ 0)) * 2 ^ 30 + b2n (decide (s.log.errs.length ≥ 7168)) * 2 ^ 29 +
    min 16 (open' 2) * 65536 + min 255 (open' 1) * 256 + min 255 (open' 0)

/-- RAS_LOG_STAT. -/
def Log.occupancy (l : Log) : Nat := l.errs.length * 65536 + (l.alarms.filter fun r => !r.catchAll).length

/-- RAS_LOG_DATA_w. -/
def Log.dataWord (l : Log) (w : Nat) : Nat :=
  match (l.errs ++ l.alarms).find? fun r => r.index = l.logIdx with
  | some r => bits (recordBytes r).toNat (32 * w) 32
  | none => 0

def State.rasPeek (s : State) (o : Nat) : Nat :=
  match o with
  | 0x00 => s.rasStatus
  | 0x04 => s.log.occupancy
  | 0x08 => s.log.next.toNat
  | 0x0C => s.log.dropped.toNat
  | 0x10 => s.log.fenceCause.toNat
  | 0x14 => s.log.alarmCfg.toNat
  | 0x18 => s.log.ceCfg.toNat
  | 0x1C => s.log.hostErr.toNat
  | 0x100 => s.log.logIdx.toNat
  | o => match regIndex o 0x140 16 with
    | some w => s.log.dataWord w
    | none => 0

def State.rasWrite (s : State) (o : Nat) (v : Word32) : State :=
  match o with
  | 0x14 => { s with log := { s.log with alarmCfg := v &&& 7 } }
  | 0x18 => { s with log := { s.log with ceCfg := v } }
  | 0x1C => { s with log := { s.log with hostErr := 0 } }
  | 0x100 => { s with log := { s.log with logIdx := v } }
  | _ => s

/-- The contexts marked halted, those whose halt waits for an exchange's end among them (R474, R475). -/
def Ctx.marked (y : Ctx) : Bool := y.halted || y.haltPend

/-- DBG_STATUS. -/
def State.dbgStatus (s : State) : Nat :=
  b2n s.dbg.packageHalt * 2 ^ 31 + b2n s.dbg.tapHold * 2 ^ 30 + b2n s.dbg.abandoned * 2 ^ 29 + b2n s.dbg.tapBusy * 2 ^ 28 +
    (s.tiles.map fun p => b2n p.2.c0.marked + b2n p.2.c1.marked).sum

/-- DBG_HALT_MAP_g. -/
def State.haltMap (s : State) (g : Nat) : Nat :=
  (List.range 9).foldl (fun a c =>
    a + b2n (s.tiles.any fun p => decide (p.1 / 16 = 16 * g + c) && (p.2.c0.marked || p.2.c1.marked)) * 2 ^ c) 0

def State.dbgPeek (s : State) (o : Nat) : Nat :=
  match o with
  | 0x00 => b2n s.dbg.tapEn * 2 ^ 31
  | 0x04 => s.dbgStatus
  | o => match regIndex o 0x100 16 with
    | some g => s.haltMap g
    | none => 0

def State.dbgWrite (s : State) (o : Nat) (v : Word32) : State :=
  match o with
  | 0x00 => { s with dbg := { s.dbg with tapEn := v.getLsbD 31 } }
  | 0x04 => { s with dbg := { s.dbg with abandoned := s.dbg.abandoned && !v.getLsbD 29 } }
  | _ => s

/-! ### REGION -/

/-- REGION_CTRL_STATUS; it reads 0 while the spine is off (R390). -/
def State.regionStatus (s : State) (g : Nat) : Nat :=
  let r := s.region g
  if s.domainOn (144 + g) then
    b2n r.stewardOk * 2 ^ 31 + b2n r.refLock * 2 ^ 30 + b2n r.xcalValid * 2 ^ 29 + s.fuses.stewardRom.toNat * 65536 +
      r.clkActive.toNat * 256 + r.clkTarget.toNat
  else 0

/-- REGION_XCAL_STATUS. -/
def State.xcalStatus (s : State) (g : Nat) : Nat :=
  let r := s.region g
  let valid (o : Nat) : Bool := if o = g then r.bootCalDone else (r.crossing o).valid
  b2n ((List.range 16).any fun o => decide (o ≠ g) && (r.crossing o).recalPend) * 2 ^ 31 + b2n r.slippedSticky * 2 ^ 30 +
    r.slipCount.toNat * 65536 + (List.range 16).foldl (fun a o => a + b2n (valid o) * 2 ^ o) 0

/-- REGION_XCAL_SRC_s. -/
def Crossing.word (x : Crossing) : Nat := b2n x.valid * 2 ^ 31 + x.wander.toNat * 256 + x.depth.toNat

/-- REGION_GOV_STATUS. -/
def State.govStatus (s : State) (g : Nat) : Nat := (SMap.get 16 s.power.regionQ g).toNat * 65536 + b2n s.power.excess

/-- REGION_CL_ERR_STATUS. -/
def State.clErrStatus (s : State) (k : Nat) : Nat :=
  let c := s.cluster k
  b2n (s.windowAt 1 (16 * k)).isSome * 2 ^ 31 + b2n c.errEscalated * 2 ^ 30 + c.errPos.toNat * 2 ^ 19 + c.errAction.toNat * 65536 +
    c.errWindows.toNat

/-- A cluster controller's registers; a fused cluster's read zero but for its spare map (R46). -/
def State.clusterPeek (s : State) (g c o : Nat) : Nat :=
  let k := 16 * g + c
  let x := s.cluster k
  if c ≥ s.clusterCount then (if o = 0 ∧ c < 9 then s.spareMap k else 0)
  else match o with
    | 0x000 => s.spareMap k
    | 0x040 => b2n x.scrubEn * 2 ^ 31 + x.scrubInterval.toNat
    | 0x0C4 => x.spUe.toNat
    | 0x200 => s.clErrStatus k
    | o => match regIndex o 0x80 17 with
      | some p => (SMap.get 0 x.spCe p).toNat
      | none => 0

def State.clusterWrite (s : State) (g c o : Nat) (v : Word32) : State :=
  let k := 16 * g + c
  if c ≥ s.clusterCount then s
  else match o with
    | 0x040 => s.modCluster k fun x => { x with scrubEn := v.getLsbD 31, scrubInterval := v.extractLsb' 0 3 }
    | 0x0C4 => s.modCluster k fun x => { x with spUe := x.spUe &&& ~~~ (v &&& 0xC0000000) }
    | 0x200 => s.modCluster k fun x => { x with errEscalated := x.errEscalated && !v.getLsbD 30 }
    | o => match regIndex o 0x80 17 with
      | some p => if v.getLsbD 31 then s.modCluster k fun x => { x with spCe := SMap.put 0 x.spCe p 0 } else s
      | none => s

/-- The trace control page, but for RD_DATA_0, whose read captures (R485). -/
def State.tracePeek (s : State) (g o : Nat) : Nat :=
  let r := s.region g
  match o with
  | 0x00 => r.trcCtl.toNat
  | 0x40 => r.trcLo.toNat * 8
  | 0x44 => r.trcHi.toNat * 8
  | 0x48 => r.trcTag.toNat
  | 0x50 => b2n r.trcWrapped * 2 ^ 31 + r.trcNext.toNat
  | 0x54 => r.trcLost.toNat
  | 0x100 => r.trcRdIdx.toNat
  | o => match regIndex o 0x10 9, regIndex o 0x60 9, regIndex o 0x120 8 with
    | some c, _, _ => (SMap.get 0xFFFF r.trcTiles c).toNat
    | _, some c, _ => (s.cluster (16 * g + c)).qdrop.toNat
    | _, _, some w => bits r.trcCapture.toNat (32 * w) 32
    | _, _, _ => 0

/-- CLEAR of REGION_TRC_LOST, of REGION_TRC_QDROP_c (R468, R484). -/
def State.clearLost (s : State) (g : Nat) (v : Word32) : State :=
  if v.getLsbD 31 then s.modRegion g fun r => { r with trcLost := 0 } else s
def State.clearQdrop (s : State) (g c : Nat) (v : Word32) : State :=
  if v.getLsbD 31 then s.modCluster (16 * g + c) fun k => { k with qdrop := 0 } else s

def State.traceCtlWrite (s : State) (g o : Nat) (v : Word32) : State :=
  match o with
  | 0x00 => s.modRegion g fun r => { r with trcCtl := v &&& 0xF00000FE }
  | 0x40 => s.modRegion g fun r => { r with trcLo := v.extractLsb' 3 18 }
  | 0x44 => s.modRegion g fun r => { r with trcHi := v.extractLsb' 3 18 }
  | 0x48 => s.modRegion g fun r => { r with trcTag := v }
  | 0x54 => s.clearLost g v
  | 0x100 => s.modRegion g fun r => { r with trcRdIdx := v.extractLsb' 0 15 }
  | o => match regIndex o 0x10 9, regIndex o 0x60 9 with
    | some c, _ => s.modRegion g fun r => { r with trcTiles := SMap.put 0xFFFF r.trcTiles c (v.extractLsb' 0 16) }
    | _, some c => s.clearQdrop g c v
    | _, _ => s

/-- REGION_TRC_RD_DATA_0: the read captures event RD_IDX whole (R485). -/
def State.traceCapture (s : State) (g : Nat) : State :=
  s.modRegion g fun r => { r with trcCapture := SMap.get 0 r.trcBuf r.trcRdIdx.toNat }

def State.regionPeek (s : State) (g o : Nat) : Nat :=
  if o < 0x1000 then
    match o with
    | 0x000 => s.regionStatus g
    | 0x100 => s.xcalStatus g
    | 0x108 => (s.region g).xmon.toNat
    | o => match regIndex o 0x140 16 with
      | some src => if src = g then 0 else ((s.region g).crossing src).word
      | none => 0
  else if 0x10000 ≤ o ∧ o < 0x19000 then s.clusterPeek g ((o - 0x10000) / 0x1000) (o % 0x1000)
  else if o = 0x20010 then
    b2n (s.region g).invDone * 2 ^ 31 + (s.region g).invMode.toNat * 2 ^ 26 + (s.region g).invAsid.toNat * 4096
  else if o = 0x30000 then s.govStatus g
  else if o = 0x30004 then (s.region g).droopCount.toNat
  else if o = 0x30008 then (SMap.get 8 s.power.govFix g).toNat
  else if 0x40000 ≤ o ∧ o < 0x50000 then s.tracePeek g (o - 0x40000)
  else 0

def State.regionWrite (s : State) (g o : Nat) (v : Word32) : State :=
  if o = 0x100 then
    if v.getLsbD 30 then s.modRegion g fun r => { r with slippedSticky := false } else s
  else if o = 0x104 then nextOr s (execXcalRecenterRequest g v s)
  else if o = 0x108 then nextOr s (execXmonClear g v s)
  else if 0x10000 ≤ o ∧ o < 0x19000 then s.clusterWrite g ((o - 0x10000) / 0x1000) (o % 0x1000) v
  else if o = 0x20010 then nextOr s (execXlatInvalidate g v s)
  else if o = 0x30008 then
    { s with power := { s.power with govFix := SMap.put 8 s.power.govFix g (v.extractLsb' 0 6) } }.setVoltages.retarget
  else if 0x40000 ≤ o ∧ o < 0x50000 then s.traceCtlWrite g (o - 0x40000) v
  else s

/-! ### FAB and MEM -/

/-- FAB_HALF_STATUS_h; half 1 of a whole port reads zero. -/
def State.halfStatus (s : State) (p h : Nat) : Nat :=
  let x := s.half (2 * p + h)
  if h = 1 ∧ s.splitNow p = false then 0
  else x.state.toNat * 2 ^ 28 + x.version.toNat * 2 ^ 26 + b2n x.rate200 * 2 ^ 25 + b2n x.peerTn6 * 2 ^ 24 + x.width.toNat * 2 ^ 22 +
    x.peerEgress.toNat * 65536 + b2n x.peerValid * 32768 + x.peerDev.toNat

/-- FAB_CNT_k_h. -/
def State.fabCnt (s : State) (p h k : Nat) : Nat := (SMap.get 0 s.fabric.counters (16 * (2 * p + h) + k)).toNat

/-- FAB_XSYNC registers of a zone, at offsets from its base. -/
def State.xsyncPeek (s : State) (z : BitVec 3) (o : Nat) : Nat :=
  let x := s.xgroup z
  let seq : BitVec 12 := if x.wait.isSome then x.seq - 1 else x.seq
  match o with
  | 0x00 => x.cfg.toNat
  | 0x04 => x.tree.toNat
  | 0x08 => x.state.toNat * 2 ^ 30 + x.cause.toNat * 2 ^ 24 + x.phase.toNat * 4096 + seq.toNat
  | 0x0C => b2n x.pathMeas * 2 ^ 31 + x.path.toNat
  | 0x10 => if x.isRoot then x.dmax.toNat else 0
  | 0x14 => x.calWord
  | 0x18 => x.breakReason.toNat * 2 ^ 30 + x.breakDev.toNat * 32768 + x.breakPeer.toNat
  | 0x1C => x.late.toNat
  | o => match regIndex o 0x100 64 with
    | some j =>
      let e := SMap.get XEdge.reset x.edges j
      b2n e.valid * 2 ^ 31 + b2n e.meas * 2 ^ 30 + e.child.toNat * 4096 + (if e.meas then e.lat.toNat else 0)
    | none => 0

def State.xsyncWrite (s : State) (z : BitVec 3) (o : Nat) (v : Word32) : State :=
  match o with
  | 0x00 => s.writeXsyncCfg z v
  | 0x04 => s.writeXsyncTree z v
  | 0x1C => nextOr s (execFabXsyncLateClear z v s)
  | o => match regIndex o 0x100 64 with
    | some j => s.writeXsyncEdge z j v
    | none => s

/-- The device-wide registers of FAB 0, from 0x3_0000. -/
def State.fabDevPeek (s : State) (o : Nat) : Nat :=
  match o with
  | 0x00 => b2n s.fabric.devValid * 2 ^ 31 + b2n s.fabric.devRefused * 2 ^ 30 + s.fabric.devId.toNat
  | 0x04 => s.fabric.timeouts.toNat
  | 0x08 => s.fabric.fwd.toNat
  | 0x10 => s.fabric.rtIdx.toNat
  | 0x24 => b2n s.fabric.rtHost * 2 ^ 31 + b2n s.fabric.rtRefused * 2 ^ 30
  | 0x28 => s.fabric.late.toNat
  | 0x2C => s.fabric.xctl.toNat
  | o => match regIndex o 0x14 4 with
    | some i => (SMap.get 0 s.fabric.rtData i).toNat
    | none => if 0x1000 ≤ o ∧ o < 0x2000 then s.xsyncPeek (BitVec.ofNat 3 ((o - 0x1000) / 0x200)) (o % 0x200) else 0

def State.fabDevWrite (s : State) (o : Nat) (v : Word32) : State :=
  match o with
  | 0x00 => nextOr s (execDeviceIdSet v s)
  | 0x04 => { s with fabric := { s.fabric with timeouts := v } }
  | 0x08 => { s with fabric := { s.fabric with fwd := v &&& 0x03FF003F } }
  | 0x10 => { s with fabric := { s.fabric with rtIdx := v.extractLsb' 0 15 } }
  | 0x24 => s.writeRtCmd v
  | 0x28 => nextOr s (execFabLateClear v s)
  | 0x2C => { s with fabric := { s.fabric with xctl := v &&& 0x0FFF0FFF } }
  | o => match regIndex o 0x14 4 with
    | some i => { s with fabric := { s.fabric with rtData := SMap.put 0 s.fabric.rtData i v } }
    | none => if 0x1000 ≤ o ∧ o < 0x2000 then s.xsyncWrite (BitVec.ofNat 3 ((o - 0x1000) / 0x200)) (o % 0x200) v else s

def State.fabPeek (s : State) (p o : Nat) : Nat :=
  let m := s.marginAt p
  if p = 0 ∧ 0x30000 ≤ o then s.fabDevPeek (o - 0x30000)
  else match o with
    | 0x000 => (s.portCfg p).toNat
    | 0x010 => s.halfStatus p 0
    | 0x014 => s.halfStatus p 1
    | 0x200 => b2n m.kind * 2 ^ 29 + m.lane.toNat * 2 ^ 24 + m.dwell.toNat * 2 ^ 19
    | 0x204 => m.state.toNat * 2 ^ 30 + m.reason.toNat * 2 ^ 28 + b2n m.refused * 2 ^ 27 + m.points
    | o => match regIndex o 0x100 12, regIndex o 0x140 12, regIndex o 0x1000 1024 with
      | some k, _, _ => s.fabCnt p 0 k
      | _, some k, _ => s.fabCnt p 1 k
      | _, _, some j => (SMap.get 0 m.results j).toNat
      | _, _, _ => 0

def State.fabWrite (s : State) (p o : Nat) (v : Word32) : State :=
  if p = 0 ∧ 0x30000 ≤ o then s.fabDevWrite (o - 0x30000) v
  else match o with
    | 0x000 => s.writePortCfg p v
    | 0x0F0 => nextOr s (execFabCntClear p v s)
    | 0x200 => s.writeMargin p v
    | 0x204 => if v.getLsbD 27 then s.modMargin p fun m => { m with refused := false } else s
    | _ => s

def State.memPeek (s : State) (m o : Nat) : Nat :=
  let x := s.stack m
  match o with
  | 0x00 => if m = 0 then b2n s.memory.intlvBusy * 2 ^ 31 + b2n s.memory.intlvRefused * 2 ^ 30 + s.memory.intlvMode.toNat else 0
  | 0x04 => if m = 0 then b2n s.memory.hostWin else 0
  | 0x10 => b2n x.trained * 2 ^ 31 + b2n x.selfRefresh * 2 ^ 30 + b2n x.refDouble * 2 ^ 29 + x.temp.toNat * 256
  | 0x14 => x.ce.toNat
  | 0x18 => x.poisonLo.toNat
  | 0x1C => x.poisonHi.toNat
  | _ => 0

def State.memRegWrite (s : State) (m o : Nat) (v : Word32) : State :=
  match o with
  | 0x00 => if m = 0 then nextOr s (execInterleaveChange v s) else s
  | 0x04 => if m = 0 then { s with memory := { s.memory with hostWin := v.getLsbD 0 } } else s
  | 0x14 => nextOr s (execMemCeClear m v s)
  | 0x18 => s.modStack m fun k => { k with poisonLo := k.poisonLo &&& ~~~ (v &&& 3) }
  | _ => s

/-! ### The whole of BAR0 (R44, R45, R444) -/

/-- What a BAR0 offset reads: the blocks of R44; everything else reads zero (R45), and before READY everything but CHIP
(R444). The words of the pairs are read by `bar0Read`. -/
def State.bar0Peek (s : State) (off : Nat) : Nat :=
  let b := off / 0x100000
  let o := off % 0x100000
  if b = 0 then s.chipPeek o
  else if s.host.ready = false then 0
  else match b with
    | 1 => s.cmdqPeek o
    | 2 => s.pwrPeek o
    | 3 => s.arbPeek o
    | 4 => s.rasPeek o
    | 5 => s.dbgPeek o
    | b =>
      if 16 ≤ b ∧ b < 32 then s.regionPeek (b - 16) o
      else if 0x2000000 ≤ off ∧ off < 0x2800000 then s.fabPeek ((off - 0x2000000) / 0x40000) (off % 0x40000)
      else if 0x2800000 ≤ off ∧ off < 0x2900000 then s.memPeek ((off - 0x2800000) / 0x20000) (off % 0x20000)
      else 0

/-- A write of a register that is no half of a pair. -/
def State.bar0Poke (s : State) (off : Nat) (v : Word32) : State :=
  let b := off / 0x100000
  let o := off % 0x100000
  if b = 0 then s.chipWrite o v
  else if s.host.ready = false then s
  else match b with
    | 1 => s.cmdqWrite o v
    | 2 => s.pwrWrite o v
    | 3 => s.arbWrite o v
    | 4 => s.rasWrite o v
    | 5 => s.dbgWrite o v
    | b =>
      if 16 ≤ b ∧ b < 32 then s.regionWrite (b - 16) o v
      else if 0x2000000 ≤ off ∧ off < 0x2800000 then s.fabWrite ((off - 0x2000000) / 0x40000) (off % 0x40000) v
      else if 0x2800000 ≤ off ∧ off < 0x2900000 then s.memRegWrite ((off - 0x2800000) / 0x20000) (off % 0x20000) v
      else s

/-- The offsets of the low words of the pairs (R13): the admin queue's ring bases, the BAR2 base, the energy count, and in each
region the root-table address and the address of an invalidation. -/
def isPairLow (off : Nat) : Bool :=
  off = 0x100010 || off = 0x100018 || off = 0x100030 || off = 0x200010 ||
    (decide (0x1000000 ≤ off) && decide (off < 0x2000000) &&
      (decide (off % 0x100000 = 0x20000) || decide (off % 0x100000 = 0x20014)))

/-- The 64 bits that a pair holds. -/
def State.pairValue (s : State) (off : Nat) : Nat :=
  let r := s.region ((off - 0x1000000) / 0x100000)
  match off with
  | 0x100010 => s.host.adminSq.toNat
  | 0x100018 => s.host.adminCq.toNat
  | 0x100030 => s.host.bar2Base.toNat
  | 0x200010 => s.power.energy.toNat
  | off =>
    if off % 0x100000 = 0x20000 then r.xlatRootHi.toNat * 2 ^ 32 + r.xlatRootLo.toNat
    else r.invVaHi.toNat * 2 ^ 32 + r.invVaLo.toNat

/-- Write both halves of a pair at once. -/
def State.pairPut (s : State) (off : Nat) (hi lo : Word32) : State :=
  let w : Word := hi ++ lo
  let g := (off - 0x1000000) / 0x100000
  match off with
  | 0x100010 => if s.host.adminEn then s else { s with host := { s.host with adminSq := w &&& 0xFFFFFFFFFFFFF000 } }
  | 0x100018 => if s.host.adminEn then s else { s with host := { s.host with adminCq := w &&& 0xFFFFFFFFFFFFF000 } }
  | 0x100030 => { s with host := { s.host with bar2Base := w &&& 0x1FFC0000000 } }
  | 0x200010 => s
  | off =>
    if off % 0x100000 = 0x20000 then
      s.modRegion g fun r => { r with xlatRootLo := lo &&& 0xFFFF8001, xlatRootHi := hi &&& 0x1FF }
    else s.modRegion g fun r => { r with invVaLo := lo &&& 0xFFFF0000, invVaHi := hi &&& 0x1FFFFFF }

/-- Read the low word of a pair: the high word enters its holding register (R13). -/
def State.pairLowRead (s : State) (off : Nat) : State × Nat :=
  let w := s.pairValue off
  let hold := SMap.put 0 s.host.pairHold off (BitVec.ofNat 32 (w / 2 ^ 32))
  ({ s with host := { s.host with pairHold := hold } }, w % 2 ^ 32)

/-- Stage the high word of the pair at a low offset (R13). -/
def State.pairHighWrite (s : State) (off : Nat) (v : Word32) : State :=
  { s with host := { s.host with pairStage := (off, v) :: s.host.pairStage.filter fun e => e.1 ≠ off } }

/-- Write the low word: both halves at once, the high word zero where none is staged (R13). -/
def State.pairLowWrite (s : State) (off : Nat) (v : Word32) : State :=
  let hi := ((s.host.pairStage.find? fun e => e.1 = off).map (·.2)).getD 0
  { s with host := { s.host with pairStage := s.host.pairStage.filter fun e => e.1 ≠ off } }.pairPut off hi v

/-- The offset of REGION_TRC_RD_DATA_0 of some region. -/
def isCapture (off : Nat) : Bool :=
  decide (0x1000000 ≤ off) && decide (off < 0x2000000) && decide (off % 0x100000 = 0x40120)

/-- An aligned 32-bit read of BAR0 (R13, R14, R45, R485). -/
def State.bar0Read (s : State) (off : Nat) : State × Word32 :=
  if s.host.ready ∧ isPairLow off then
    let r := s.pairLowRead off
    (r.1, BitVec.ofNat 32 r.2)
  else if s.host.ready ∧ 4 ≤ off ∧ isPairLow (off - 4) then (s, SMap.get 0 s.host.pairHold (off - 4))
  else if s.host.ready ∧ isCapture off then
    let s := s.traceCapture ((off - 0x1000000) / 0x100000)
    (s, BitVec.ofNat 32 (s.bar0Peek off))
  else (s, BitVec.ofNat 32 (s.bar0Peek off))

/-- An aligned 32-bit write of BAR0. -/
def State.bar0Write (s : State) (off : Nat) (v : Word32) : State :=
  if isPairLow off then (if s.host.ready then s.pairLowWrite off v else s)
  else if 4 ≤ off ∧ isPairLow (off - 4) then (if s.host.ready then s.pairHighWrite (off - 4) v else s)
  else s.bar0Poke off v

/-! ### The commands -/

/-- The host port answers accesses to BAR0: PERST_N is high (R408, R443). -/
def State.portUp (s : State) : Bool := s.chip.powered && !s.chip.perst

/-- BAR0_PAIR_LOW_READ. -/
def execBar0PairLowRead (off : Nat) (s : State) : Res :=
  if s.portUp ∧ s.host.ready ∧ isPairLow off then
    let r := s.pairLowRead off
    .next (r.1.emit (.completion (leBytes 4 r.2) false))
  else .next s

/-- BAR0_PAIR_HIGH_WRITE: `off` is the offset of the high word. -/
def execBar0PairHighWrite (off : Nat) (v : Word32) (s : State) : Res :=
  .next (if s.portUp ∧ s.host.ready ∧ 4 ≤ off ∧ isPairLow (off - 4) then s.pairHighWrite (off - 4) v else s)

/-- BAR0_PAIR_LOW_WRITE. -/
def execBar0PairLowWrite (off : Nat) (v : Word32) (s : State) : Res :=
  .next (if s.portUp ∧ s.host.ready ∧ isPairLow off then s.pairLowWrite off v else s)

/-- REGISTER_WRITE: an aligned 32-bit write by the host; any other access follows R12. -/
def execRegisterWrite (off : Nat) (v : Word32) (s : State) : Res :=
  if s.portUp = false then .next s
  else if off % 4 = 0 ∧ off < 0x4000000 then .next (s.bar0Write off v)
  else .next ((s.countHostErr false).emit .unsupported)

/-- REG_READ (R424). -/
def execRegRead (h : CmdHdr) (off : Nat) (s : State) : Res :=
  .next (s.onCmd h 0x0801 [(0, 4, off)] fun s =>
    if off % 4 ≠ 0 then s.fail h 0x0801 stField 16
    else
      let r := s.bar0Read off
      r.1.ok h 0x0801 r.2.toNat)

/-- REG_WRITE (R424). -/
def execRegWrite (h : CmdHdr) (off : Nat) (v : Word32) (s : State) : Res :=
  .next (s.onCmd h 0x0802 [(0, 4, off), (4, 4, v.toNat)] fun s =>
    if off % 4 ≠ 0 then s.fail h 0x0802 stField 16
    else (s.bar0Write off v).ok h 0x0802)

/-- The register values that a selector of DUMP names, in their order (R424). -/
def State.dumpWords (s : State) (sel : Nat) (zone : BitVec 3) : List Nat :=
  match sel with
  | 0 => (List.range 16).flatMap fun g => [s.regionStatus g, s.govStatus g]
  | 1 => (List.range 256).flatMap fun p => let r := s.phaseRec (256 * zone.toNat + p); [r.word0, r.word1]
  | _ => (List.range 8).map (fun m => (s.stack m).ce.toNat) ++
      (List.range 32).flatMap fun p => (List.range 2).flatMap fun h => (List.range 12).map fun k => s.fabCnt p h k

/-- The bytes that a selector needs. -/
def dumpSize (sel : Nat) : Nat :=
  match sel with
  | 0 => 128
  | 1 => 2048
  | _ => 3104

/-- DUMP (R424). -/
def execDump (h : CmdHdr) (sel : BitVec 8) (zone : BitVec 3) (buf len : Nat) (s : State) : Res :=
  .next (s.onCmd h 0x0502 [(0, 1, sel.toNat), (1, 1, zone.toNat), (8, 8, buf), (16, 4, len)] fun s =>
    let n := dumpSize sel.toNat
    if len < n then s.fail h 0x0502 stNoSpace n
    else
      let s := s.emit (.write buf ((s.dumpWords sel.toNat zone).flatMap fun w => leBytes 4 w) false)
      s.ok h 0x0502 n)

/-! ### A domain comes on (R389–R391), a read that draws no completion (R408, R453) -/

/-- A DOMAIN command that waits for this domain replies (R389). -/
def State.domainReplies (s : State) (d : Nat) : State :=
  s.each (s.host.waits.filter fun w => w.kind = .domain d) fun s w => (s.unwait w).ok w.hdr w.opcode 1

/-- DOMAIN_SWITCH_ON_DONE: the domain whose turn it is is on (R390, R391). -/
def execDomainSwitchOnDone (dom : Nat) (s : State) : Res :=
  if s.power.domPending.head? = some dom then .next ((s.switchedOn dom).domainReplies dom).pumpCopies
  else .next s

/-- A PCIe read of the device has ended, with a code of R323: a fetch gives its command or its queue's ERROR, a copy goes on, and what
waits for a host-window read has its answer (R343, R408, R416). -/
def State.readEnds (s : State) (tag : BitVec 32) (data : List Byte) (code : BitVec 4) : State :=
  match s.memory.reqs.find? fun r => decide (r.txid = tag) && r.dev.isNone && (decide (r.kind = 4) || decide (r.kind = 8) || decide (r.kind = 9)) with
  | some r =>
    if r.kind = 9 then
      let s := { s with memory := { s.memory with reqs := eraseFirst (fun q => q = r) s.memory.reqs } }
      if code = 0 then s.fetched r.gran (BitVec.ofNat 512 (leNat (sliceBytes data 0 64))) else s.queueError r.gran 3
    else s.hostReadDone r data code
  | none => if s.copyAwaits tag Option.isNone then s.copyAnswer tag (some data) code else s

/-- The device waits for a completion with this tag. -/
def State.awaitsRead (s : State) (tag : BitVec 32) : Bool :=
  (s.memory.reqs.any fun r => decide (r.txid = tag) && r.dev.isNone && (decide (r.kind = 4) || decide (r.kind = 8) || decide (r.kind = 9))) ||
    s.copyAwaits tag Option.isNone

/-- HOST_READ_COMPLETION: the completion of a PCIe read that the device made, with its data, poisoned or not; or one that says the
request has no data to give, whose code the manual leaves open, a free value among those of R323 (R343, R408; assumption 90). -/
def execHostReadCompletion (tag : BitVec 32) (data : Option (List Byte)) (poison : Bool) (s : State) : Res :=
  .next (if s.awaitsRead tag then
    match data with
    | some l => s.readEnds tag l (if poison then 4 else 0)
    | none => s.tookFree.readEnds tag [] (BitVec.ofNat 4 (1 + Config.freeValue s.free % 5))
    else s)

/-- PCIE_COMPLETION_TIMEOUT: a read draws no completion, and the fetch, copy or host-window access fails with TIMEOUT; or the write of a
reply fails, and its queue enters ERROR. The expiry is counted (R323, R408, R416, R453). -/
def execPcieCompletionTimeout (req : PcieReq) (s : State) : Res :=
  match req with
  | .read tag => .next (if s.awaitsRead tag then s.countTimeout.readEnds tag [] 3 else s)
  | .reply q => .next (if (s.queue q).state = .active then s.countTimeout.queueError q 4 else s)

end Sys2Proof.Machine
end

