-- ==== Sys2Proof/Machine/Debug.lean ====
section
/-! DEFINITION. The debug port and the debug commands of the host (R470–R481): halts, steps, breakpoints, the four debug spaces, and the
trace buffer of a region (R482–R485). -/

namespace Sys2Proof.Machine

/-! ### Halting and running (R474–R476) -/

/-- The opcodes of the debug operations: 0x07xx from the host, 0x8000 + OP from the debug port (R424, R472). -/
def opMemRead (tap : Bool) : BitVec 16 := if tap then 0x8003 else 0x0704
def opMemWrite (tap : Bool) : BitVec 16 := if tap then 0x8004 else 0x0705

/-- The header of a debug port operation: it belongs to no queue. -/
def tapHdr : CmdHdr := { queue := 64, seq := 0, irq := false, expert := false, timeoutMs := 0 }

/-- A tile id that names a tile of this grade (R31). -/
def State.tileOk (s : State) (tile : BitVec 16) : Bool := decide (tile.toNat < 4096) && s.validTile (tile.extractLsb' 0 12)

/-- A STEP under way ends at this instruction boundary; its command replies with the program counter (R476). -/
def State.endStep (s : State) (t : TileId) (c : Bool) : State :=
  let s := s.modCtx t c fun y => { y with steps := 0 }
  match s.host.waits.find? (fun w => w.kind = .step t c) with
  | some w => (s.unwait w).ok w.hdr w.opcode (s.ctx t c).pc.toNat
  | none => s

/-- A halt request reaches one context (R474, R475). In an exchange it takes effect at the end decision; an ACTIVE context halts
now; any other takes its halt when it becomes active. -/
def State.haltOne (s : State) (t : TileId) (c : Bool) : State :=
  let y := s.ctx t c
  if s.inExchange t c then (if y.halted then s.endStep t c else s.modCtx t c fun y => { y with haltPend := true })
  else if y.phase = .active then
    if y.halted ∧ y.steps = 0 then s else (s.haltCtx t c 1 0 0).endStep t c
  else (s.modCtx t c fun y => { y with halted := true }).endStep t c

/-- RUN clears the mark of one context (R476). -/
def State.runOne (s : State) (t : TileId) (c : Bool) : State :=
  (s.modCtx t c fun y => { y with halted := false, haltPend := false }).endStep t c

/-- The scope that a command names: a region by its number, anything else by a tile (R424, R472, R474). -/
def scopeOf (scope : BitVec 3) (tile : TileId) (region : Nat) (ctx : Bool) : DbgScope :=
  { scope := scope, tile := if scope = 3 then BitVec.ofNat 12 (256 * region) else tile, ctx := ctx }

/-- A halt of a scope: the command replies once it has taken effect on every ACTIVE context there (R474). -/
def State.haltScope (s : State) (h : CmdHdr) (op : BitVec 16) (sc : DbgScope) : State :=
  let s := s.each (s.scopeCtxs sc) fun s m => s.haltOne m.1 m.2
  let s := if sc.scope = 4 then { s with dbg := { s.dbg with packageHalt := true } } else s
  (s.wait h op (.halt sc)).pumpHalts

/-- A run of a scope (R476). -/
def State.runScope (s : State) (h : CmdHdr) (op : BitVec 16) (sc : DbgScope) : State :=
  let s := s.each (s.scopeCtxs sc) fun s m => s.runOne m.1 m.2
  let s := if sc.scope = 4 then { s with dbg := { s.dbg with packageHalt := false } } else s
  (s.pumpHalts).ok h op

/-- Scopes below the region name a tile, which must exist (R31, R421). -/
def State.scopeBad (s : State) (scope : BitVec 3) (tile : BitVec 16) : Bool := decide (scope.toNat < 3) && !s.tileOk tile

/-- HALT (R474). -/
def execHalt (h : CmdHdr) (scope : BitVec 3) (tile : BitVec 16) (ctx : Bool) (s : State) : Res :=
  .next (s.onCmd h 0x0701 [(0, 1, scope.toNat), (2, 2, tile.toNat), (4, 1, b2n ctx)] fun s =>
    if s.scopeBad scope tile then s.fail h 0x0701 stBadTile tile.toNat
    else s.haltScope h 0x0701 (scopeOf scope (tile.extractLsb' 0 12) (bits tile.toNat 0 4) ctx))

/-- RUN (R476). -/
def execRun (h : CmdHdr) (scope : BitVec 3) (tile : BitVec 16) (ctx : Bool) (s : State) : Res :=
  .next (s.onCmd h 0x0702 [(0, 1, scope.toNat), (2, 2, tile.toNat), (4, 1, b2n ctx)] fun s =>
    if s.scopeBad scope tile then s.fail h 0x0702 stBadTile tile.toNat
    else s.runScope h 0x0702 (scopeOf scope (tile.extractLsb' 0 12) (bits tile.toNat 0 4) ctx))

/-- The context can issue instructions once it is active: it has neither ended, faulted, nor been evicted, and it is loaded. -/
def Ctx.mayIssue (y : Ctx) : Bool := decide (y.phase = .active) || decide (y.phase = .loaded)

/-- STEP n: it needs a halted context; STEP 0 reports the program counter; a context that can issue nothing ends the step at once
(R476). -/
def State.stepCtx (s : State) (h : CmdHdr) (op : BitVec 16) (t : TileId) (c : Bool) (n : Nat) : State :=
  let y := s.ctx t c
  if y.halted = false ∨ y.steps > 0 then s.fail h op stState t.toNat
  else if n = 0 then s.ok h op y.pc.toNat
  else if y.mayIssue then (s.modCtx t c fun y => { y with steps := n }).wait h op (.step t c)
  else s.fail h op stState t.toNat

/-- STEP (R476). -/
def execStep (h : CmdHdr) (tile : BitVec 16) (ctx : Bool) (n : BitVec 32) (s : State) : Res :=
  .next (s.onCmd h 0x0703 [(2, 2, tile.toNat), (4, 1, b2n ctx), (8, 4, n.toNat)] fun s =>
    if s.tileOk tile then s.stepCtx h 0x0703 (tile.extractLsb' 0 12) ctx n.toNat
    else s.fail h 0x0703 stBadTile tile.toNat)

/-! ### The spaces (R478) -/

/-- The domains that a command needs for a tile it names: its cluster's, where the tile exists (R389). -/
def State.tileNeeds (s : State) (tile : BitVec 16) : List Nat :=
  if s.tileOk tile then [domainOf (tile.extractLsb' 0 12)] else []

/-- Writes of si, the program counter and the per-context T_ registers need a context that is halted or not ACTIVE (R478). -/
def Ctx.regsFree (y : Ctx) : Bool := decide (y.phase ≠ .active) || (y.halted && decide (y.steps = 0))

/-- One register of the register view: a T_ register, si, the program counter, a word of a vector register (R478). -/
def State.regView (s : State) (t : TileId) (c : Bool) (a : Nat) : Word :=
  let x := s.tile t
  let y := x.ctx c
  if a < 0x1000 then s.tRead t c a
  else if a < 0x1020 then y.reg (BitVec.ofNat 5 (a - 0x1000))
  else if a = 0x1020 then y.pc
  else if 0x1100 ≤ a ∧ a < 0x1300 then (x.vreg (BitVec.ofNat 5 ((a - 0x1100) / 16))).extractLsb' (64 * (a % 16)) 64
  else 0

/-- A debug write of a T_ register: those of the debug block by their writable fields, the others by R14 (R477, R478). -/
def State.tPoke (s : State) (t : TileId) (c : Bool) (a : Nat) (v : Word) : Option State :=
  if 0x100 ≤ a ∧ a < 0x104 then
    some (s.modTile t fun x => { x with ibp := SMap.put 0 x.ibp (a - 0x100) (v &&& 0xE0000000001FFFF8) })
  else if 0x108 ≤ a ∧ a < 0x10A then
    some (s.modTile t fun x => { x with wp := SMap.put 0 x.wp (a - 0x108) (v &&& 0xFFC00000001FFFFF) })
  else if a = 0x110 then some (s.modTile t fun x => { x with haltOnBrk := v.getLsbD 63, audit := v.getLsbD 62 })
  else s.tWrite t c a v

/-- A debug write of one register; none where it is refused (R478). -/
def State.regPoke (s : State) (t : TileId) (c : Bool) (a : Nat) (v : Word) : Option State :=
  let free := (s.ctx t c).regsFree
  if a < 0x100 then (if free then s.tPoke t c a v else none)
  else if a < 0x1000 then s.tPoke t c a v
  else if a < 0x1020 then
    (if free then some (s.modCtx t c fun y => y.setReg (BitVec.ofNat 5 (a - 0x1000)) v) else none)
  else if a = 0x1020 then
    (if free then some (s.modCtx t c fun y => { y with pc := v &&& ~~~ 7, skipMatch := false }) else none)
  else if 0x1100 ≤ a ∧ a < 0x1300 then
    let r : RegNo := BitVec.ofNat 5 ((a - 0x1100) / 16)
    some (s.modTile t fun x =>
      let n := (x.vreg r).toNat
      let sh := 64 * (a % 16)
      x.setVreg r (BitVec.ofNat 1024 (n - bits n sh 64 * 2 ^ sh + v.toNat * 2 ^ sh)))
  else some s

/-- A read of a scratchpad through the maintenance path: the stored bytes, and whether a word was uncorrectable (R99, R100, R102,
R478). -/
def State.spPeek (s : State) (t : TileId) (a n : Nat) : State × List Byte × Bool :=
  let x := s.tile t
  match x.badWord a n with
  | some w => ((s.countCe t (x.singles a n)).ueSeen t false w 7, x.read a n, true)
  | none => (s.countCe t (x.singles a n), x.read a n, false)

/-- Size of a scratchpad (R77). -/
def spBytes : Nat := 0x200000

/-- Write registers from successive words; the first that is refused ends the writes. -/
def State.regPokes (s : State) (t : TileId) (c : Bool) (a : Nat) : List Word → Option State
  | [] => some s
  | v :: r => match s.regPoke t c a v with
    | some s => s.regPokes t c (a + 1) r
    | none => none

/-- MEM_READ (R424, R478). -/
def execMemRead (h : CmdHdr) (p : DbgMem) (s : State) : Res :=
  let fields := [(0, 1, p.space.toNat), (2, 2, p.tile.toNat), (4, 1, b2n p.ctx), (8, 8, p.addr), (16, 8, p.buf), (24, 4, p.len)]
  let t : TileId := p.tile.extractLsb' 0 12
  .next (s.onCmdNeeds h 0x0704 fields (if p.space = 1 then [] else s.tileNeeds p.tile) fun s =>
    if p.space = 1 then
      s.copyBegin h 0x0704 { srcHost := false, dstHost := true, src := p.addr, dst := p.buf, len := p.len, data := [] }
    else if !s.tileOk p.tile then s.fail h 0x0704 stBadTile p.tile.toNat
    else if p.space = 0 then
      if p.addr + p.len > spBytes then s.fail h 0x0704 stBadAddr
      else
        let r := s.spPeek t p.addr p.len
        (r.1.emit (.write p.buf r.2.1 false)).ok h 0x0704 (p.len + b2n r.2.2 * 2 ^ 32)
    else if p.len % 8 ≠ 0 then s.fail h 0x0704 stField 40
    else
      let l := (List.range (p.len / 8)).flatMap fun i => leBytes 8 (s.regView t p.ctx (p.addr + i)).toNat
      (s.emit (.write p.buf l false)).ok h 0x0704 p.len)

/-- MEM_WRITE (R424, R478): `data` is what the host buffer holds, or none where its read failed (R421). -/
def execMemWrite (h : CmdHdr) (p : DbgMem) (data : Option (List Byte)) (s : State) : Res :=
  let fields := [(0, 1, p.space.toNat), (2, 2, p.tile.toNat), (4, 1, b2n p.ctx), (8, 8, p.addr), (16, 8, p.buf), (24, 4, p.len)]
  let t : TileId := p.tile.extractLsb' 0 12
  let l := sliceBytes (data.getD []) 0 p.len
  .next (s.onCmdNeeds h 0x0705 fields (if p.space = 1 then [] else s.tileNeeds p.tile) fun s =>
    if data.isNone then s.fail h 0x0705 stBadAddr
    else
    if p.space = 1 then
      s.copyBegin h 0x0705 { srcHost := true, dstHost := false, src := p.buf, dst := p.addr, len := p.len, data := l }
    else if !s.tileOk p.tile then s.fail h 0x0705 stBadTile p.tile.toNat
    else if p.space = 0 then
      if p.addr + p.len > spBytes then s.fail h 0x0705 stBadAddr
      else (s.spWrite t p.addr l).ok h 0x0705 p.len
    else if p.len % 8 ≠ 0 then s.fail h 0x0705 stField 40
    else
      match s.regPokes t p.ctx p.addr ((List.range (p.len / 8)).map fun i => BitVec.ofNat 64 (fieldAt l (8 * i) 8)) with
      | some s => s.ok h 0x0705 p.len
      | none => s.fail h 0x0705 stState p.tile.toNat)

/-! ### Layouts of the state view (R479–R481) -/

/-- A message's ring length, from its header (R292). -/
def ringLength (len : Nat) : Nat := 64 * ceilDiv (16 + 32 * len) 64

/-- Ring k of a context: 352 bytes; the head entry starts where a landing does, at a multiple of 64 (R292, R302, R479; assumption
94). -/
def Tile.ringView (x : Tile) (c : Bool) (k : Nat) : List Byte :=
  let y := x.ctx c
  let r := y.cr (if k = 8 then 7 else 8 + k)
  let base := x.phys c r.baseAddr
  let at? (off n : Nat) : List Byte := (List.range n).flatMap fun i => x.read (base + (off + i) % r.bytes) 1
  let start := ceilDiv r.tail 64 * 64 % r.bytes
  let len := bits (leNat (at? start 4)) 28 4
  let valid := if r.bytes = 0 ∨ r.tail % 2 ^ 21 = (y.ring k).wptr % 2 ^ 21 then 0 else if k = 8 then 16 else ringLength len
  leBytes 8 r.cfgWord ++ leBytes 8 r.ptrWord ++ leBytes 8 (y.postStatus k) ++ leBytes 4 valid ++ leBytes 4 0 ++
    sliceBytes (at? start (min valid 320)) 0 320

/-- Code of a context state in STATE_READ (R480). -/
def phaseCode (p : CtxPhase) : Nat :=
  match p with
  | .empty => 0
  | .loaded => 1
  | .active => 2
  | .done => 3
  | .faulted => 4
  | .evicted => 5

/-- Item 0, the tile's counters: 64 bytes (R480). -/
def Tile.countersView (x : Tile) : List Byte :=
  leBytes 8 x.c0.sigCount ++ leBytes 8 x.c1.sigCount ++ leBytes 8 x.c0.ovf.toNat ++ leBytes 8 x.c1.ovf.toNat ++
    leBytes 8 (x.engBusy false) ++ leBytes 8 (x.engBusy true) ++
    leBytes 16 (phaseCode x.c0.phase + 8 * b2n x.c0.halted + 16 * phaseCode x.c1.phase + 128 * b2n x.c1.halted)

/-- Item 1, an arbiter instance: 32 + 4 × I_c bytes (R481). -/
def State.arbView (s : State) (cls inst : Nat) : List Byte :=
  let a := s.arb
  let x := s.arbInst cls inst
  let lanes := (List.range 12).flatMap fun l => match x.owners.find? fun o => o.1 = l with
    | some o => leBytes 2 (a.numOf cls x o.2.input)
    | none => leBytes 2 0xFFFF
  let lanes := if arbLanes cls = 1 then lanes.take 2 ++ List.replicate 22 0 else lanes
  let reqs := (List.range (arbInputs cls)).flatMap fun i =>
    let head := x.reqs.find? fun r => r.input = i
    leBytes 4 (a.numOf cls x i * 65536 + match head with
      | some r => 2 ^ 31 + b2n r.old * 2 ^ 30 + min 0xFFFF (a.age r)
      | none => 0)
  leBytes 1 (a.nOf cls x) ++ leBytes 1 x.gcount ++ leBytes 2 (arbInputs cls) ++ lanes ++ leBytes 4 0 ++ reqs

/-- Item 2, the suspended stream slots: 1,024 bytes (R480). -/
def Tile.slotsView (x : Tile) : List Byte :=
  (List.range 64).flatMap fun i =>
    let y := x.ctx (decide (i ≥ 32))
    match y.stream.find? fun o => o.suspendedNow && decide (o.slot = i % 32) with
    | some o =>
      let (elem, cause) := match o.phase with
        | .suspended f => (f.elem, f.cause.toNat)
        | _ => (0, 0)
      leBytes 8 elem ++ leBytes 1 1 ++ leBytes 1 cause ++ leBytes 2 (streamOpcode o.op.ins) ++ leBytes 4 0
    | none => List.replicate 16 0

/-- An arbiter instance that exists: none, or the offset of the packet's byte that names the one that does not (R303). -/
def arbBad (cls inst : Nat) : Option Nat := if cls > 8 then some 18 else if inst ≥ arbInstances cls then some 20 else none

/-- RING_READ (R479). -/
def execRingRead (h : CmdHdr) (tile : BitVec 16) (ctx : Bool) (ring buf : Nat) (s : State) : Res :=
  .next (s.onCmdNeeds h 0x0706 [(2, 2, tile.toNat), (4, 1, b2n ctx), (5, 1, ring), (8, 8, buf)] (s.tileNeeds tile) fun s =>
    if !s.tileOk tile then s.fail h 0x0706 stBadTile tile.toNat
    else (s.emit (.write buf ((s.tile (tile.extractLsb' 0 12)).ringView ctx ring) false)).ok h 0x0706 352)

/-- STATE_READ (R480, R481). -/
def execStateRead (h : CmdHdr) (item : BitVec 8) (tile : BitVec 16) (inst buf : Nat) (s : State) : Res :=
  let t : TileId := tile.extractLsb' 0 12
  .next (s.onCmdNeeds h 0x0707 [(0, 1, item.toNat), (2, 2, tile.toNat), (4, 4, inst), (8, 8, buf)]
      (if item = 1 then [] else s.tileNeeds tile) fun s =>
    let send (s : State) (l : List Byte) : State := (s.emit (.write buf l false)).ok h 0x0707 l.length
    if item = 1 then
      match arbBad (bits tile.toNat 0 4) inst with
      | some b => s.fail h 0x0707 stField b
      | none => send s (s.arbView (bits tile.toNat 0 4) inst)
    else if !s.tileOk tile then s.fail h 0x0707 stBadTile tile.toNat
    else send s (if item = 0 then (s.tile t).countersView else (s.tile t).slotsView))

/-- BREAK (R477): slots 0–3 are instruction breakpoints, 4–5 watchpoints with RD = WR = 1 and SIZE = 3. -/
def execBreak (h : CmdHdr) (tile : BitVec 16) (slot : Nat) (flags : BitVec 8) (addr : Word) (s : State) : Res :=
  .next (s.onCmdNeeds h 0x0708 [(2, 2, tile.toNat), (4, 1, slot), (5, 1, flags.toNat), (8, 8, addr.toNat)] (s.tileNeeds tile) fun s =>
    if !s.tileOk tile then s.fail h 0x0708 stBadTile tile.toNat
    else
      let en : Word := if flags.getLsbD 0 then 0x8000000000000000 else 0
      let v : Word := 0x6000000000000000 ||| en
      let s := s.modTile (tile.extractLsb' 0 12) fun x =>
        let x := { x with haltOnBrk := flags.getLsbD 1, audit := flags.getLsbD 2 }
        if slot < 4 then { x with ibp := SMap.put 0 x.ibp slot (v ||| (addr &&& 0x1FFFF8)) }
        else { x with wp := SMap.put 0 x.wp (slot - 4) (v ||| 0x18C0000000000000 ||| (addr &&& 0x1FFFFF)) }
      s.ok h 0x0708)

/-! ### The debug port (R470–R473) -/

/-- TAP_RESET: IDCODE is selected, EXTEST is not, and a hold ends; one that is cut is an abandoned grant (R309, R471, R473). -/
def execTapReset (s : State) : Res :=
  let s := { s with chip := { s.chip with tapIr := 0xFE, extest := false } }
  let mine (r : ArbReq) : Bool := decide (r.cls = 8) && decide (r.input = 6)
  let owns := (s.arbInst 8 0).owners.any fun o => mine o.2
  let s := s.abandon mine
  if s.dbg.tapHold then
    let s := if owns then s else s.noteAbandon 8 0
    .next ({ s with dbg := { s.dbg with tapHold := false, abandoned := true } }.grantHold)
  else .next s

/-- TAP_EXTEST: while it is selected, the device is fenced (R460, R471). -/
def execTapExtest (s : State) : Res :=
  .next ({ s with chip := { s.chip with tapIr := 0, extest := true } }.fence noRecord)

/-- Start a DBGACC operation: nothing while one runs; REFUSED with TAP_EN = 0 (R470, R472). -/
def State.tapStart (s : State) (op : Nat) (a : DbgAcc) : State :=
  if s.chip.powered = false ∨ s.dbg.tapBusy then s
  else if !s.dbg.tapEn then { s with dbg := { s.dbg with status := 5, data := 0 } }
  else { s with dbg := { s.dbg with tapBusy := true, op := some (op, a) } }

/-- The operation is answered RESERVED. -/
def State.tapReserved (s : State) : State :=
  { s with dbg := { s.dbg with tapBusy := false, op := none, status := 6, data := 0 } }

/-- An operation on a tile that exists; while its cluster is off the operation switches it on and waits (R31, R389). -/
def State.tapTile (s : State) (op : Nat) (a : DbgAcc) (t : TileId) (f : State → State) : State :=
  let d := domainOf t
  if !s.validTile t then s.fail tapHdr 0x8000 stBadTile
  else if s.domainOn d then f s
  else if s.domDenied d then s.fail tapHdr 0x8000 stDomainOff
  else { s.switchOn d with dbg := { s.dbg with op := some (op, a) } }

/-- The bytes of the state view that an address names: bits 63:48 item, 47:32 tile or class, 31:16 instance (R478). -/
def State.stateView (s : State) (a : Nat) : Option (List Byte) :=
  let t : TileId := BitVec.ofNat 12 (bits a 32 12)
  let inst := bits a 16 16
  match bits a 48 16 with
  | 0 => some (s.tile t).countersView
  | 1 => if (arbBad (bits a 32 4) inst).isSome then none else some (s.arbView (bits a 32 4) inst)
  | 2 => some (s.tile t).slotsView
  | 3 => if inst % 16 ≤ 8 ∧ inst / 16 ≤ 1 then some ((s.tile t).ringView (decide (inst / 16 = 1)) (inst % 16)) else none
  | _ => none

/-- READ8 (R478). -/
def State.tapRead8 (s : State) (a : DbgAcc) : State :=
  let addr := a.addr.toNat
  let op := opMemRead true
  match a.space.toNat with
  | 0 => s.tapTile 3 a a.tile fun s =>
    if addr / 8 * 8 + 8 > spBytes then s.fail tapHdr op stBadAddr
    else
      let r := s.spPeek a.tile (addr / 8 * 8) 8
      let s := r.1.ok tapHdr op (leNat r.2.1)
      if r.2.2 then { s with dbg := { s.dbg with status := 2 } } else s
  | 1 => s.copyBegin tapHdr op { srcHost := false, dstHost := true, src := addr / 8 * 8, dst := 0, len := 8, data := [] }
  | 2 => s.tapTile 3 a a.tile fun s => s.ok tapHdr op (s.regView a.tile a.ctx addr).toNat
  | 3 =>
    let send (s : State) : State := match s.stateView addr with
      | some l => s.ok tapHdr op (fieldAt l (bits addr 3 13 * 8) 8)
      | none => s.tapReserved
    if bits addr 48 16 = 1 then send s else s.tapTile 3 a (BitVec.ofNat 12 (bits addr 32 12)) send
  | _ => s.tapReserved

/-- WRITE8 (R478). -/
def State.tapWrite8 (s : State) (a : DbgAcc) : State :=
  let addr := a.addr.toNat
  let op := opMemWrite true
  match a.space.toNat with
  | 0 => s.tapTile 4 a a.tile fun s =>
    if addr / 8 * 8 + 8 > spBytes then s.fail tapHdr op stBadAddr
    else (s.spWrite a.tile (addr / 8 * 8) (leBytes 8 a.data.toNat)).ok tapHdr op
  | 1 => s.copyBegin tapHdr op
      { srcHost := true, dstHost := false, src := 0, dst := addr / 8 * 8, len := 8, data := leBytes 8 a.data.toNat }
  | 2 => s.tapTile 4 a a.tile fun s =>
    match s.regPoke a.tile a.ctx addr a.data with
    | some s => s.ok tapHdr op
    | none => s.fail tapHdr op stState
  | _ => s.tapReserved

/-- HALT and RUN of the debug port. -/
def State.tapHalt (s : State) (run : Bool) (a : DbgAcc) : State :=
  let op : BitVec 16 := if run then 0x8006 else 0x8005
  let sc := scopeOf a.space a.tile (bits a.tile.toNat 8 4) a.ctx
  if a.space.toNat > 4 then s.tapReserved
  else if a.space.toNat < 3 ∧ ¬ s.validTile a.tile then s.fail tapHdr op stBadTile
  else if run then s.runScope tapHdr op sc
  else s.haltScope tapHdr op sc

/-- REG_READ and REG_WRITE of the debug port: an aligned offset in BAR0 (R12, R472). -/
def State.tapReg (s : State) (write : Bool) (a : DbgAcc) : State :=
  let off := a.addr.toNat
  let op : BitVec 16 := if write then 0x8002 else 0x8001
  if off % 4 ≠ 0 ∨ off ≥ 0x4000000 then s.fail tapHdr op stField
  else if write then (s.bar0Write off (a.data.extractLsb' 0 32)).ok tapHdr op
  else
    let r := s.bar0Read off
    r.1.ok tapHdr op r.2.toNat

/-- Run an operation by its OP, with the bus granted to the debug port. -/
def State.tapRun (s : State) (op : Nat) (a : DbgAcc) : State :=
  match op with
  | 1 => s.tapReg false a
  | 2 => s.tapReg true a
  | 3 => s.tapRead8 a
  | 4 => s.tapWrite8 a
  | 5 => s.tapHalt false a
  | 6 => s.tapHalt true a
  | 7 => s.tapTile 7 a a.tile fun s => s.stepCtx tapHdr 0x8007 a.tile a.ctx (bits a.addr.toNat 0 32)
  | 8 => { s with dbg := { s.dbg with tapHold := true } }.grantHold.ok tapHdr 0x8008
  | 9 => { s with dbg := { s.dbg with tapHold := false } }.grantHold.ok tapHdr 0x8009
  | _ => s.tapReserved

/-- An operation that waits for the management bus or for a domain goes on, where the host does not hold the bus or the debug port
does (R311, R473). -/
def State.tapPump (s : State) : State :=
  match s.dbg.op with
  | some (op, a) =>
    if s.arb.granted && !s.dbg.tapHold then s
    else { s with dbg := { s.dbg with op := none } }.tapRun op a
  | none => s

/-- Update-DR with an operation: what waits goes on first; then the new one starts unless the port is BUSY (R472). -/
def State.tapUpdate (s : State) (op : Nat) (a : DbgAcc) : State := ((s.tapPump).tapStart op a).tapPump

/-- The fields of an operation that uses none. -/
def noAcc : DbgAcc := { space := 0, ctx := false, tile := 0, addr := 0, data := 0 }

/-- DBGACC_POLL: the last result stays for the next Capture-DR. -/
def execDbgaccPoll (s : State) : Res :=
  let s := s.tapPump
  if s.chip.powered && !s.dbg.tapBusy && !s.dbg.tapEn then .next { s with dbg := { s.dbg with status := 5, data := 0 } }
  else .next s
/-- DBGACC_REG_READ. -/
def execDbgaccRegRead (a : DbgAcc) (s : State) : Res := .next (s.tapUpdate 1 a)
/-- DBGACC_REG_WRITE. -/
def execDbgaccRegWrite (a : DbgAcc) (s : State) : Res := .next (s.tapUpdate 2 a)
/-- DBGACC_READ8. -/
def execDbgaccRead8 (a : DbgAcc) (s : State) : Res := .next (s.tapUpdate 3 a)
/-- DBGACC_WRITE8. -/
def execDbgaccWrite8 (a : DbgAcc) (s : State) : Res := .next (s.tapUpdate 4 a)
/-- DBGACC_HALT. -/
def execDbgaccHalt (a : DbgAcc) (s : State) : Res := .next (s.tapUpdate 5 a)
/-- DBGACC_RUN. -/
def execDbgaccRun (a : DbgAcc) (s : State) : Res := .next (s.tapUpdate 6 a)
/-- DBGACC_STEP. -/
def execDbgaccStep (a : DbgAcc) (s : State) : Res := .next (s.tapUpdate 7 a)
/-- DBGACC_HOLD. -/
def execDbgaccHold (s : State) : Res := .next (s.tapUpdate 8 noAcc)
/-- DBGACC_RELEASE. -/
def execDbgaccRelease (s : State) : Res := .next (s.tapUpdate 9 noAcc)
/-- DBGACC_RESERVED. -/
def execDbgaccReserved (s : State) : Res := .next (s.tapUpdate 10 noAcc)

/-! ### The trace buffer (R482–R485) -/

/-- The 32 bytes of an event (R483). -/
def eventBits (time tile : Nat) (type seq payload : Nat) : BitVec 256 :=
  BitVec.ofNat 256 (packAt 0 [(0, time), (8, tile), (10, type), (11, seq), (12, payload)])

/-- Write one event at NEXT. While FREEZE is 1 it is counted instead; an event overwritten is counted as lost (R484,
REGION_TRC_LOST). -/
def Region.writeEvent (r : Region) (time tile type payload : Nat) : Region :=
  if r.trcCtl.getLsbD 30 then { r with trcLost := satInc r.trcLost }
  else
    { r with
      trcBuf := SMap.put 0 r.trcBuf r.trcNext.toNat (eventBits time tile type r.trcSeq.toNat payload)
      trcSeq := r.trcSeq + 1
      trcLost := if r.trcWrapped then satInc r.trcLost else r.trcLost
      trcWrapped := r.trcWrapped || decide (r.trcNext = 0x7FFF)
      trcNext := r.trcNext + 1 }

/-- The LOST event that goes before the next event of a source that has discarded some. Its TIME and tile are free values: no rule
states them. -/
def State.writeLost (s : State) (g k : Nat) : State :=
  let n := (s.cluster k).trqLost
  if n = 0 ∨ (s.region g).trcCtl.getLsbD 30 then s
  else
    let time := (s.freeBits 64).toNat
    let s := s.tookFree
    let tile := (s.freeBits 13).toNat
    let s := s.tookFree
    (s.modRegion g fun r => r.writeEvent time tile 7 (n % 2 ^ 32 + k % 16 * 2 ^ 32)).modCluster k fun c => { c with trqLost := 0 }

/-- TRACE_WRITE: the oldest event of a cluster's queue is written to the region's ring (R482). -/
def execTraceWrite (region cluster : Nat) (s : State) : Res :=
  let k := 16 * region + cluster
  match (s.cluster k).trq with
  | e :: rest =>
    if region < 16 ∧ cluster < 9 ∧ s.domainOn (144 + region) then
      let s := s.writeLost region k
      let s := s.modRegion region fun r =>
        r.writeEvent e.time.toNat (e.tile.toNat + b2n e.ctx * 4096) e.type e.payload.toNat
      .next (s.modCluster k fun c => { c with trq := rest })
    else .next s
  | [] => .next s

/-- TRACE_READ_CAPTURE: a host read of RD_DATA_0 (R485). -/
def execTraceReadCapture (region : Nat) (s : State) : Res :=
  if s.portUp ∧ s.host.ready ∧ region < 16 then
    let s := s.traceCapture region
    .next (s.emit (.completion (leBytes 4 (bits (s.region region).trcCapture.toNat 0 32)) false))
  else .next s

/-- TRACE_LOST_CLEAR: a write of REGION_TRC_LOST (R484). -/
def execTraceLostClear (region : Nat) (v : Word32) (s : State) : Res :=
  .next (if region < 16 then s.clearLost region v else s)

/-- TRACE_QDROP_CLEAR: a write of REGION_TRC_QDROP_c (R468). -/
def execTraceQdropClear (region cluster : Nat) (v : Word32) (s : State) : Res :=
  .next (if region < 16 ∧ cluster < 9 then s.clearQdrop region cluster v else s)

end Sys2Proof.Machine
end

