-- ==== Sys2Proof/Machine/Stipple.lean ====
section
/-! DEFINITION. Stipple's own instructions (R156–R160, R168, R169, R228). -/

namespace Sys2Proof.Machine

/-- One step of the TN6 generator (R168). -/
def tn6Step (x : Word) : Word :=
  let x := x ^^^ (x <<< 13)
  let x := x ^^^ (x >>> 7)
  x ^^^ (x <<< 17)

/-- `n` steps: the outputs in order, and the state they leave (R169). -/
def tn6Run : Nat → Word → List Word × Word
  | 0, x => ([], x)
  | n + 1, x =>
    let y := tn6Step x
    let r := tn6Run n y
    (y :: r.1, r.2)

/-- The binary32 code of j · 2^−24 (R159). -/
def uniform32 (j : Nat) : Nat := (fmtB32.round 0 false j (-24)).1

/-- Bits to bytes, element i at bit i mod 8 of byte i / 8, the last byte filled with zeros (R159). -/
def packMask (l : List Bool) : List Byte :=
  (List.range (ceilDiv l.length 8)).map fun j =>
    BitVec.ofNat 8 (((l.drop (8 * j)).take 8).foldr (fun b v => b2n b + 2 * v) 0)

/-- The kind of a Stipple instruction's output (R159). -/
inductive StipKind where
  | raw128
  | raw32
  | uni
  | bern
deriving DecidableEq, Repr

/-- The element count N. -/
def stipCount (o : EngOp) : Nat := bits (o.arg 1) 0 32

/-- Bytes of the output, before it is filled to whole lines. -/
def stipBytes (k : StipKind) (n : Nat) : Nat :=
  match k with
  | .raw128 => 16 * n
  | .raw32 | .uni => 4 * n
  | .bern => ceilDiv n 8

/-- The output of the native generator (R156, R159). -/
def stipNative (k : StipKind) (f : StipF) (o : EngOp) (n : Nat) : List Byte :=
  let t := o.regs.getD 2 0
  let e (i : Nat) : Word := o.regs.getD 3 0 + BitVec.ofNat 64 i
  match k with
  | .raw128 => (List.range n).flatMap fun i => leBytes 16 (stippleG o.key t (e i)).toNat
  | .raw32 => (List.range n).flatMap fun i => leBytes 4 (drawRaw32 o.key t (e i))
  | .uni => (List.range n).flatMap fun i => leBytes 4 (uniform32 (drawU24 o.key t (e i)))
  | .bern => packMask ((List.range n).map fun i => decide (drawHalf o.key t (e i) < f.p.toNat))

/-- The output made of the TN6 generator's steps (R169). -/
def stipTn6 (k : StipKind) (f : StipF) (l : List Word) : List Byte :=
  match k with
  | .raw128 => []
  | .raw32 => l.flatMap fun w => leBytes 4 (bits w.toNat 32 32)
  | .uni => l.flatMap fun w => leBytes 4 (uniform32 (bits w.toNat 40 24))
  | .bern => packMask (l.map fun w => decide (bits w.toNat 48 16 < f.p.toNat))

/-- The scratchpad bytes a Stipple instruction writes: whole lines (R228). -/
def stipSpans (k : StipKind) (f : StipF) (o : EngOp) : List Span :=
  if f.stg || stipCount o = 0 then []
  else [(alignTo 128 (o.arg 0), 128 * ceilDiv (stipBytes k (stipCount o)) 128)]

/-- Whole lines into the staging store, successive lines modulo 32 (R226, R228). -/
def stageLines (m : SMap (BitVec 1024)) : Nat → Nat → List Byte → SMap (BitVec 1024)
  | 0, _, _ => m
  | n + 1, i, l => stageLines (SMap.put 0 m (i % 32) (BitVec.ofNat 1024 (leNat (l.take 128)))) n (i + 1) (l.drop 128)

/-- A Stipple instruction. -/
def State.stipEffect (s : State) (t : TileId) (o : EngOp) (k : StipKind) (f : StipF) : EngOut :=
  let n := stipCount o
  if n = 0 then .done s
  else
    let lines := ceilDiv (stipBytes k n) 128
    let run := tn6Run n (s.ctx t o.ctx).stpTn6
    let s := if o.tn6 then s.modCtx t o.ctx fun y => { y with stpTn6 := run.2 } else s
    let out := padTo (128 * lines) (if o.tn6 then stipTn6 k f run.1 else stipNative k f o n)
    .done (if f.stg then s.modTile t fun x => { x with staging := stageLines x.staging lines (bits (o.arg 0) 0 5) out }
           else s.engWrite t o.ctx (alignTo 128 (o.arg 0)) out)

/-! ### Issue -/

def stipRegs (f : StipF) : List RegNo := [f.rd, f.rn, f.rt, f.re]

/-- The active context draws from the TN6 generator. -/
def State.activeTn6 (s : State) (t : TileId) : Bool :=
  match (s.tile t).active with
  | some c => (s.ctx t c).stpCtl.getLsbD 0
  | none => false

def execRraw128 (t : TileId) (w : WaitSig) (f : StipF) (s : State) : Res :=
  s.issueEng t 3 (.rraw128 t w f) (stipRegs f) (instrOk (.rraw128 t w f) && !s.activeTn6 t)
def execRraw32 (t : TileId) (w : WaitSig) (f : StipF) (s : State) : Res :=
  s.issueEng t 3 (.rraw32 t w f) (stipRegs f)
def execRuni (t : TileId) (w : WaitSig) (f : StipF) (s : State) : Res :=
  s.issueEng t 3 (.runi t w f) (stipRegs f)
def execRbern (t : TileId) (w : WaitSig) (f : StipF) (s : State) : Res :=
  s.issueEng t 3 (.rbern t w f) (stipRegs f)

end Sys2Proof.Machine
end

