-- ==== Sys2Proof/Machine/Engines.lean ====
section
/-! DEFINITION. The start and the finish of an instruction of Burin, Stylus or Stipple (R55, R57, R72, R117, R205, R206,
R211). -/

namespace Sys2Proof.Machine

/-- The vector format of a register instruction, and which of the sources VA, VB and VC it reads as vector registers (R215–R220). -/
def vecForm : Instr → Option (VecF × Bool × Bool × Bool)
  | .vadd _ _ f | .vsub _ _ f | .vmul _ _ f | .vdiv _ _ f | .vrem _ _ f | .vmin _ _ f | .vmax _ _ f | .vminnum _ _ f =>
    some (f, true, true, false)
  | .vmaxnum _ _ f | .vscaleb _ _ f | .vcmp _ _ f | .viadd _ _ f | .visub _ _ f | .vimul _ _ f | .vand _ _ f | .vor _ _ f =>
    some (f, true, true, false)
  | .vxor _ _ f | .vshl _ _ f | .vshr _ _ f | .vimin _ _ f | .vimax _ _ f | .vicmp _ _ f | .vperm _ _ f =>
    some (f, true, true, false)
  | .vsqrt _ _ f | .vlogb _ _ f | .vclass _ _ f | .vrint _ _ f | .vnext _ _ f | .vcvtr _ _ f _ _ | .vred _ _ f | .vsf _ _ f =>
    some (f, true, false, false)
  | .vfma _ _ f | .vfms _ _ f | .vfnma _ _ f | .vsel _ _ f => some (f, true, true, true)
  | .vsgn _ _ f => some (f, true, decide (f.sub = 3), false)
  | .vsplat _ _ f => some (f, false, false, false)
  | _ => none

/-- The vector register that a register instruction writes. -/
def vecDest (i : Instr) : RegNo :=
  match vecForm i with
  | some (f, _) => f.vd
  | none => match i with
    | .vgumbel _ _ vd _ _ => vd
    | _ => 0

/-- The vector registers that a Stylus instruction writes, and those that it reads or writes (R214). -/
def vecWrites (i : Instr) : List RegNo :=
  match i with
  | .vld _ _ f => [f.vd]
  | .vldl _ _ v _ _ _ _ | .vstg _ _ v _ => [v]
  | .vgumbel _ _ vd _ _ => [vd]
  | i => ((vecForm i).map fun p => p.1.vd).toList
def vecUses (i : Instr) : List RegNo :=
  match i with
  | .vst _ _ vs _ _ _ => [vs]
  | .vstl _ _ v _ _ _ _ => [v]
  | i => vecWrites i ++ match vecForm i with
    | some (f, a, b, c) =>
      (if a then [f.va] else []) ++ (if b then [f.vb] else []) ++ (if c then [f.vc] else []) ++ (if f.mv then [f.vm] else [])
    | none => []

/-- The bulk instructions of Stylus (R214). -/
def isBulk : Instr → Bool
  | .vcvt _ _ _ | .vsplit32 _ _ _ _ _ _ _ | .vslice64 _ _ _ _ _ _ _ _ _ | .vsample _ _ _ => true
  | _ => false

/-- The scratchpad runs that an instruction reads, pops left out (R206). -/
def Tile.engReads (x : Tile) (o : EngOp) : List Span :=
  match o.ins with
  | .mstat _ _ f => statSpans f o
  | .mmul _ _ f => mmulSpans f o x.opbuf
  | .mread _ _ f => if shRows o = 0 ∨ mreadCols o = 0 then [] else mreadReads f o
  | .vld _ _ f => if f.crm then [] else vldSpans f (o.arg 0) (o.arg 1)
  | .vldl _ _ _ _ _ crm _ => if crm then [] else [(alignTo 8 (o.arg 0), 8)]
  | .vcvt _ _ f => let a := cvtAddr f o; if a.n = 0 then [] else [a.src, a.splate]
  | .vsplit32 _ _ _ _ _ _ _ => let n := bits (o.arg 3) 0 32; if n = 0 then [] else [(alignTo 128 (o.arg 0), lineBytes 32 n)]
  | .vslice64 _ _ _ _ _ _ _ _ _ => if (sliceShape o).1 = 0 ∨ (sliceShape o).2 = 0 then [] else sliceSpans o
  | .vsample _ _ _ => [(alignTo 4 (o.arg 0), 4 * sampleCount o)]
  | _ => []

/-- The scratchpad runs that an instruction writes, pushes left out (R206). -/
def engWrites (o : EngOp) : List Span :=
  match o.ins with
  | .mread _ _ f => if shRows o = 0 ∨ mreadCols o = 0 then [] else mreadRows f o
  | .vst _ _ _ _ crm _ => if crm then [] else [(alignTo 128 (o.arg 0), 128)]
  | .vstl _ _ _ _ _ crm _ => if crm then [] else [(alignTo 8 (o.arg 0), 8)]
  | .vcvt _ _ f => let a := cvtAddr f o; if a.n = 0 then [] else [a.dst, a.dplate]
  | .vsplit32 _ _ _ _ _ _ p3 =>
    let n := bits (o.arg 3) 0 32
    if n = 0 then [] else (List.range (if p3 then 3 else 2)).map (splitDst o n)
  | .vslice64 _ _ _ _ _ _ _ sc axis =>
    let sh := sliceShape o
    if sh.1 = 0 ∨ sh.2 = 0 then []
    else (List.range (sliceCount sc)).map (sliceDst o) ++ [(alignTo 2 (o.arg 4), 2 * (if axis then sh.2 else sh.1))]
  | .vsample _ _ _ => [(alignTo 8 (o.arg 5), 8)]
  | .rraw128 _ _ f => stipSpans .raw128 f o
  | .rraw32 _ _ f => stipSpans .raw32 f o
  | .runi _ _ f => stipSpans .uni f o
  | .rbern _ _ f => stipSpans .bern f o
  | _ => []

/-- The scratchpad footprint of an instruction at its start; pushes and pops lie in their regions, which the descriptor
check keeps in the partition (R72, R206). -/
def Tile.footprint (x : Tile) (o : EngOp) : List Span := x.engReads o ++ engWrites o

/-- The circular region that an instruction pops from (false) or pushes to (true). -/
def crmOf : Instr → Option (Bool × Nat)
  | .vld _ _ f => if f.crm then some (false, f.cr.toNat) else none
  | .vldl _ _ _ _ _ crm cr => if crm then some (false, cr.toNat) else none
  | .vst _ _ _ _ crm cr => if crm then some (true, cr.toNat) else none
  | .vstl _ _ _ _ _ crm cr => if crm then some (true, cr.toNat) else none
  | _ => none

/-- The lines of the region that an instruction pops from or pushes to, as the descriptor stands (R214). -/
def Tile.crmSpan (x : Tile) (o : EngOp) (push : Bool) : List Span :=
  match crmOf o.ins with
  | some (p, n) => if p = push then [(((x.ctx o.ctx).cr n).baseAddr, ((x.ctx o.ctx).cr n).bytes)] else []
  | none => []

/-- Two runs have a line in common. -/
def lineMeet (a b : Span) : Bool :=
  decide (a.2 ≠ 0) && decide (b.2 ≠ 0) && decide (a.1 / 128 ≤ (b.1 + b.2 - 1) / 128) && decide (b.1 / 128 ≤ (a.1 + a.2 - 1) / 128)
def linesMeet (l m : List Span) : Bool := l.any fun a => m.any (lineMeet a)

/-- A Stylus instruction must wait for an earlier one: a bulk instruction holds every unit, a vector register is still to be written, a
line still to be written before a read of it or read before a write (R214). -/
def Tile.stylusHazard (x : Tile) (o r : EngOp) : Bool :=
  isBulk r.ins || (vecWrites r.ins).any (fun v => (vecUses o.ins).contains v) ||
  (decide (o.ctx = r.ctx) &&
    (linesMeet (x.engReads o ++ x.crmSpan o false) (engWrites r ++ x.crmSpan r true) ||
     linesMeet (engWrites o ++ x.crmSpan o true) (x.engReads r ++ x.crmSpan r false)))

/-- The 4-byte words of accumulator storage that rows × columns accumulators of a kind occupy: first and count, modulo 16,384 (R131). -/
def accRange (o : EngOp) (kind cols : Nat) : Nat × Nat :=
  let w := if kind = 1 then 4 else 1
  (shBase o % accCount kind * w, w * (shRows o * cols))

/-- Two ranges of accumulator storage meet. -/
def accMeet (a b : Nat × Nat) : Bool :=
  decide (a.2 ≠ 0) && decide (b.2 ≠ 0) &&
    (decide ((b.1 + 16384 - a.1) % 16384 < a.2) || decide ((a.1 + 16384 - b.1) % 16384 < b.2))

/-- A Burin instruction must wait for an earlier one: an MMUL for an MSTAT, an MSTAT for an MMUL, an MREAD for an MMUL that writes an
accumulator it reads (R135, R211; assumption 80). -/
def Tile.burinHazard (x : Tile) (o r : EngOp) : Bool :=
  match o.ins, r.ins with
  | .mmul _ _ _, .mstat _ _ _ => true
  | .mstat _ _ _, .mmul _ _ _ => true
  | .mread _ _ f, .mmul _ _ g =>
    decide (x.opbuf.k32 ≠ 0) && accMeet (accRange o f.acc.toNat (mreadCols o)) (accRange r g.acc.toNat x.opbuf.n)
  | _, _ => false

/-- The first run of a footprint that violates the partition (R72). -/
def Tile.violation (x : Tile) (c : Bool) (l : List Span) : Option Nat :=
  (l.find? fun r => r.2 ≠ 0 && !x.inPart c r.1 r.2).map fun r => max r.1 (x.partSize c)

/-- An I32 matrix instruction meets a stationary operand that is not plain I8 or I4 (R140; assumption 13). -/
def Tile.mixedI32 (x : Tile) (o : EngOp) : Bool :=
  match o.ins with
  | .mmul _ _ f =>
    decide (f.acc = 2) && decide (x.opbuf.n ≠ 0) && decide (x.opbuf.k32 ≠ 0) && decide (shRows o ≠ 0) &&
      decide (x.opbuf.fmt ≠ 6) && decide (x.opbuf.fmt ≠ 7)
  | _ => false

/-- The head of the queue may start: its count is there, and no earlier instruction of the engine stands in its way (R57, R59, R135, R211,
R214). -/
def Tile.mayStart (x : Tile) (e : Nat) (o : EngOp) : Bool :=
  x.mayTake o.ctx e (engWaitSig o.ins).wait &&
    !(x.eng e).running.any fun r => if e = 1 then x.burinHazard o r else if e = 2 then x.stylusHazard o r else false

/-- The instruction at the head of engine e's queue starts: it takes its count, after its footprint has been checked
(R57, R72). -/
def execEngineInstructionStart (t : TileId) (eng : Nat) (s : State) : Res :=
  let x := s.tile t
  if s.tileRuns t && decide (1 ≤ eng) && decide (eng ≤ 3) then
    match (x.eng eng).queue with
    | [] => .next s
    | o :: rest =>
      if x.mayStart eng o then
        match x.violation o.ctx (x.footprint o) with
        | some a => .next (s.terminate t o.ctx 0x0102 (partDetail o.pc.toNat 3 a))
        | none =>
          if x.mixedI32 o then
            .next (s.terminate t o.ctx 0x0101
              (detail [(32, o.pc.toNat % 2 ^ 32), (40, (x.fetchWord o.ctx o.pc.toNat).toNat)]))
          else
            .next (s.modTile t fun x =>
              let x := x.setEng eng { x.eng eng with queue := rest, running := (x.eng eng).running ++ [o] }
              x.setCtx o.ctx ((x.ctx o.ctx).takeOpt (engWaitSig o.ins).wait))
      else .next s
  else .next s

/-- What an instruction of Burin, Stylus or Stipple does by its finish. -/
def State.engEffect (s : State) (t : TileId) (o : EngOp) : EngOut :=
  match o.ins with
  | .mstat _ _ f => s.mstatEffect t o f
  | .mmul _ _ f => s.mmulEffect t o f
  | .mread _ _ f => s.mreadEffect t o f
  | .vld _ _ f => s.vldEffect t o f
  | .vst _ _ vs _ crm cr => s.vstEffect t o vs crm cr
  | .vldl _ _ v _ lane crm cr => s.vldlEffect t o v lane crm cr
  | .vstl _ _ v _ lane crm cr => s.vstlEffect t o v lane crm cr
  | .vstg _ _ vd line => s.vstgEffect t vd line
  | .vcvt _ _ f => s.vcvtEffect t o f
  | .vsplit32 _ _ _ _ _ _ p3 => s.vsplitEffect t o p3
  | .vslice64 _ _ _ _ _ _ _ sc axis => s.vsliceEffect t o sc axis
  | .vsample _ _ f => s.vsampleEffect t o f
  | .rraw128 _ _ f => s.stipEffect t o .raw128 f
  | .rraw32 _ _ f => s.stipEffect t o .raw32 f
  | .runi _ _ f => s.stipEffect t o .uni f
  | .rbern _ _ f => s.stipEffect t o .bern f
  | _ =>
    let r := (s.tile t).vecResult o fun i => Config.freeValue (s.free + i)
    .done { s.setVec t (vecDest o.ins) r.data with free := s.free + r.took } r.flags

/-- Raise flags in a context's T_FPCSR (R117). -/
def Ctx.raise (y : Ctx) (flags : Nat) : Ctx := { y with fpcsr := y.fpcsr ||| BitVec.ofNat 13 (flags * 256) }

/-- Of the places that an instruction writes, each takes the new bytes or keeps the old, as a test of its number says: the scratchpad's
lines, and after them the vector registers, the accumulators' lines, the staging store's lines and the operand buffer. -/
def Tile.partly (old new : Tile) (pick : Nat → Bool) : Tile :=
  let at' (k : Nat) (n : Nat) : Bool := pick (16384 * k + n)
  let merge {α : Type} [DecidableEq α] (d : α) (p : Nat → Bool) (a b : SMap α) : SMap α :=
    (b.map (·.1) ++ a.map (·.1)).foldl (fun m k => if p k then SMap.put d m k (SMap.get d b k) else m) a
  { old with sp := (new.sp.map (·.1) ++ old.sp.map (·.1)).foldl
               (fun m a => if at' 0 (a / 128) then SMap.put 0 m a (SMap.get 0 new.sp a) else m) old.sp
             spErr := merge .ok (fun w => at' 0 (w / 16)) old.spErr new.spErr
             vregs := merge 0 (at' 1) old.vregs new.vregs
             acc := merge .empty (fun i => at' 2 (i / 32)) old.acc new.acc
             staging := merge 0 (at' 3) old.staging new.staging
             opbuf := if at' 4 0 then new.opbuf else old.opbuf }

/-- An instruction that a stop made its engine abandon comes to its internal step: of what it writes, which lines had been written is
free; it raises no flag, signals nothing and moves no pointer (R74; assumption 10). -/
def State.abandonStep (s : State) (t : TileId) (o : EngOp) : State :=
  let pick := (Config.freeValue s.free).testBit
  let r := s.tookFree.engEffect t o
  s.tookFree.modTile t fun x => x.partly (r.st.tile t) pick

/-- The oldest instruction that engine e has started finishes: its effect, its flags and its signal; one that met an
uncorrectable word stops its context instead (R55, R57, R100, R117). One that the engine is to abandon comes to that before (R74). -/
def execEngineInstructionFinish (t : TileId) (eng : Nat) (s : State) : Res :=
  let x := s.tile t
  if s.tileRuns t && decide (1 ≤ eng) && decide (eng ≤ 3) then
    match (x.eng eng).aborting, (x.eng eng).running with
    | o :: rest, _ => .next ((s.modTile t fun x => x.setEng eng { x.eng eng with aborting := rest }).abandonStep t o)
    | [], [] => .next s
    | [], o :: rest =>
      let r := (s.modTile t fun x => x.setEng eng { x.eng eng with running := rest }).engEffect t o
      match r.ue with
      | some w => .next (r.st.stopUe t o.ctx w 0)
      | none => .next (r.st.modCtx t o.ctx fun y => (y.raise r.flags).signalOpt (engWaitSig o.ins).sig)
  else .next s

end Sys2Proof.Machine
end

