-- ==== Sys2Proof/Machine/Program.lean ====
section
/-! DEFINITION. The program and sync families of host commands (R253, R258–R262, R424–R427, R431): loads and proof runs, starts and
pairings, the latched requests, evictions and restores, unloads, and class maps. -/

namespace Sys2Proof.Machine

/-! ### Placement (R70, R71, R243, R270, R426) -/

/-- The contexts that a load is to fill, one a tile. -/
abbrev Places := List (TileId × Bool)

/-- Members of a zone outside the contexts that a load replaces. -/
def State.othersOf (s : State) (z : BitVec 3) (l : Places) : Places := (s.members z).filter fun m => !l.contains m

/-- Both contexts of a tile are EMPTY. -/
def Tile.vacant (x : Tile) : Bool := decide (x.c0.phase = .empty) && decide (x.c1.phase = .empty)

/-- A context that a load may fill: EMPTY, or DONE or EVICTED when the command names it (R69, R260). -/
def CtxPhase.loadable (p : CtxPhase) (named : Bool) : Bool :=
  match p with
  | .empty => true
  | .done | .evicted => named
  | _ => false

/-- The partition of a context holds `own` units, now or once a vacant tile's boundary is set (R71, R426). -/
def Tile.fits (x : Tile) (c : Bool) (own : Nat) : Bool := x.vacant || decide (own * 65536 ≤ x.partSize c)

/-- The context that a load fills on a tile, or the status it draws (R426). `ok` says which contexts are free for it. -/
def Tile.pick (x : Tile) (sel own : Nat) (ok : Bool → Bool) : Except Nat Bool :=
  let cands : List Bool := if sel = 0 then [false] else if sel = 1 then [true] else [false, true]
  match cands.filter ok with
  | [] => .error stState
  | l => match l.find? fun c => x.fits c own with
    | some c => .ok c
    | none => .error stPartition

/-- The boundary of a vacant tile follows the first load (R426). -/
def Tile.bounded (x : Tile) (c : Bool) (own : Nat) : Tile :=
  if x.vacant then { x with bound := if c then 32 - own else own } else x

/-- A load that may not use a cluster: a pending substitution or a second failure (R33, R34). -/
def State.clusterBar (s : State) (t : TileId) : Option Nat :=
  let k := s.cluster (clusterOf t)
  if k.pend.isSome then some stPendingRepair else if k.secondFail then some stClusterOut else none

/-- The zone conflicts of R243. -/
def State.zoneConflict (s : State) (z : BitVec 3) (job : Nat) (others l : Places) : Bool :=
  (decide (others ≠ []) && decide ((s.zone z).job ≠ job)) || l.any fun m => others.contains (m.1, !m.2)

/-- The regions of some contexts. -/
def placeRegions (l : Places) : List Nat := (l.map fun m => regionOf m.1).eraseDups

/-- Entry e of a region's multicast table is in use by a zone other than z that keeps members and has its sets there (R270). -/
def State.mcUsed (s : State) (z : BitVec 3) (l : Places) (g e : Nat) : Bool :=
  allZones.any fun o =>
    let zn := s.zone o
    decide (o ≠ z) && decide (zn.mcBase ≤ e) && decide (e < zn.mcBase + zn.mcCount) && zn.mcRegions.contains g &&
      decide (s.othersOf o l ≠ [])

/-- n entries from a base are free in the tables of some regions. -/
def State.mcFree (s : State) (z : BitVec 3) (l : Places) (gs : List Nat) (b n : Nat) : Bool :=
  gs.all fun g => (List.range n).all fun i => !s.mcUsed z l g (b + i)

/-- The lowest common free run of n entries (R270). -/
def State.mcRun (s : State) (z : BitVec 3) (l : Places) (n : Nat) : Option Nat :=
  (List.range (4097 - n)).find? fun b => s.mcFree z l (placeRegions l) b n

/-- The regions that contexts bring to a zone's sets. -/
def State.mcNew (s : State) (z : BitVec 3) (l : Places) : List Nat :=
  (placeRegions l).filter fun g => !(s.zone z).mcRegions.contains g

/-- The base for a load of n sets: a free run for a zone without other members; for one that has them its own base, where the entries
are free in the regions that the load adds (R270). -/
def State.mcBaseFor (s : State) (z : BitVec 3) (l : Places) (alone : Bool) (n : Nat) : Option Nat :=
  let zn := s.zone z
  if alone then s.mcRun z l n
  else if s.mcFree z l (s.mcNew z l) zn.mcBase zn.mcCount then some zn.mcBase else none

/-- The sets that a zone holds, by region and index. -/
def State.zoneSets (s : State) (z : BitVec 3) : List (SMap (BitVec 144)) :=
  let zn := s.zone z
  (List.range zn.mcCount).map fun i =>
    zn.mcRegions.foldl (fun m g => SMap.put 0 m g (SMap.get 0 (s.region g).mcast (zn.mcBase + i))) []

/-- Write sets at a base in the tables of some regions. -/
def State.putSets (s : State) (gs : List Nat) (base : Nat) (sets : List (SMap (BitVec 144))) : State :=
  s.each gs fun s g => s.modRegion g fun r =>
    { r with mcast := (numbered base sets).foldl (fun m e => SMap.put 0 m e.1 (SMap.get 0 e.2 g)) r.mcast }

/-- A region whose crossings are not calibrated (R279). -/
def State.xcalBar (s : State) (l : Places) : Option Nat :=
  (placeRegions l).find? fun g => s.domainOn (144 + g) && !(s.region g).xcalValid

/-- The domains that contexts on some tiles need (R389). -/
def placeDomains (l : List TileId) : List Nat := (l.flatMap fun t => domainNeeds (domainOf t) ++ [domainOf t]).eraseDups

/-! ### LOAD and PROOF (R425, R426, R431) -/

/-- A failed command: status, DETAIL, RESULT. -/
abbrev CmdError := Nat × Nat × Nat

/-- What a load will do. -/
structure LoadPlan where
  img : Image
  places : Places
  base : Nat
  /-- the zone keeps other members, with their lanes and sets -/
  joins : Bool

/-- The image's bytes, with the state after reading them. -/
def State.imageBytes (s : State) : ImageSource → Except CmdError (State × List Byte)
  | .host l => .ok (s, l)
  | .hostFailed _ => .error (stBadAddr, 0, 0)
  | .package a n =>
    if s.memory.intlvBusy then .error (stMemBusy, 0, 0)
    else if ¬ s.inPackage a n then .error (stBadAddr, 0, 0)
    else match s.pkgRead a n 0 with
      | (s, l, none) => .ok (s, l)
      | (_, _, some g) => .error (stImage, 64 * g - a, 0)

/-- Choose a context on every tile of a list; `own` is the size that each needs, and `free` says which are free for the load. -/
def State.placeAll (s : State) (sel : Nat) (own : TileId → Nat) (free : TileId → Bool → Bool) :
    List TileId → Except CmdError Places
  | [] => .ok []
  | t :: rest =>
    match (s.tile t).pick sel (own t) (free t), s.placeAll sel own free rest with
    | .error e, _ => .error (e, t.toNat, 0)
    | _, .error e => .error e
    | .ok c, .ok l => .ok ((t, c) :: l)

/-- The conditions of a load on its tiles, zone, sets and crossings, in the order of R421: the base of its sets. -/
def State.loadConds (s : State) (z : BitVec 3) (job n : Nat) (l : Places) : Except CmdError Nat :=
  let others := s.othersOf z l
  if (s.zone z).aborted then .error (stState, z.toNat, 0)
  else if s.zoneConflict z job others l then .error (stZone, z.toNat, 0)
  else
    match s.mcBaseFor z l (decide (others = [])) n, s.xcalBar l with
    | none, _ => .error (stMulticast, ((placeRegions l).head?).getD 0, 0)
    | _, some g => .error (stXcal, g, 0)
    | some b, none => .ok b

/-- The proof run of an image in its place (R431). -/
def State.proofRun (s : State) (i : Image) (others : Places) : Option ProofFail :=
  let keep := decide (others ≠ [])
  let v : ProofEnv :=
    { size := i.own * 65536, tiles := i.tiles, members := i.tiles.map (·.1) ++ others.map fun m => m.1.toNat,
      lanes := if keep then (s.zone i.zone).laneMask else i.laneMask, sets := if keep then s.zoneSets i.zone else i.sets }
  v.run i.entry i.decls

/-- Every check of a load of an image (R431). -/
def State.loadPlan (s : State) (sel : Nat) (asid : BitVec 12) (i : Image) : Except CmdError LoadPlan :=
  let diff := s.fingerprintDiff i
  if diff ≠ 0 then .error (stFingerprint, diff, 0)
  else
    let ts : List TileId := i.tiles.map fun t => BitVec.ofNat 12 t.1
    match ts.findSome? fun t => (s.clusterBar t).map fun e => (e, t.toNat) with
    | some e => .error (e.1, e.2, 0)
    | none =>
      match s.placeAll sel (fun _ => i.own) (fun t c => (s.ctx t c).phase.loadable (decide (sel ≠ 2))) ts with
      | .error e => .error e
      | .ok l =>
        match s.loadConds i.zone asid.toNat i.sets.length l with
        | .error e => .error e
        | .ok base =>
          let others := s.othersOf i.zone l
          match s.proofRun i others with
          | some f => .error (stProof, f.code, f.result)
          | none => .ok { img := i, places := l, base := base, joins := decide (others ≠ []) }

/-- Read an image and check its load. -/
def State.checkLoad (s : State) (sel : Nat) (asid : BitVec 12) (src : ImageSource) : Except CmdError (State × LoadPlan) :=
  match s.imageBytes src with
  | .error e => .error e
  | .ok (s, l) => match parseImage l with
    | .error i => .error (stImage, i, 0)
    | .ok i => match s.loadPlan sel asid i with
      | .error e => .error e
      | .ok p => .ok (s, p)

/-- The bytes of a partition are replaced: `l` from its base, zero behind it, every check bit valid. -/
def Tile.fillPart (x : Tile) (c : Bool) (l : List Byte) : Tile :=
  let lo := x.partBase c
  let hi := lo + x.partSize c
  { x with sp := memWrite (x.sp.filter fun e => ¬ (lo ≤ e.1 ∧ e.1 < hi)) lo l
           spErr := x.spErr.filter fun e => ¬ (lo ≤ 8 * e.1 ∧ 8 * e.1 < hi) }

/-- A context gives way to a load: EVICTED or DONE, it becomes EMPTY; a DONE context's rings and regions stay as its task
left them (R62, R203). -/
def State.vacate (s : State) (m : TileId × Bool) : State :=
  if (s.ctx m.1 m.2).phase = .evicted then s.emptyCtx m.1 m.2 true
  else s.modCtx m.1 m.2 fun y => { y with phase := .empty }

/-- The context that a load leaves: the arguments of an earlier task stay until the next start, and its sends number from 0 (R62, R202,
R203, R289, R426). -/
def Image.context (i : Image) (asid : BitVec 12) (y : Ctx) : Ctx :=
  { Ctx.reset with phase := .loaded, pc := BitVec.ofNat 64 i.entry, entry := BitVec.ofNat 64 i.entry, zone := i.zone,
                   storesLive := i.live, asid := asid, stpKeyLo := i.key.extractLsb' 0 64,
                   stpKeyHi := i.key.extractLsb' 64 64, crs := y.crs, rings := y.rings, postEn := y.postEn,
                   statusBase := y.statusBase, args := y.args, postQ := y.postQ, stream := y.stream,
                   halted := y.halted }

/-- Load one tile, its boundary set (R426). -/
def State.loadTile (s : State) (i : Image) (asid : BitVec 12) (m : TileId × Bool) : State :=
  let sec := ((i.tiles.find? fun t => t.1 = m.1.toNat).map (·.2)).getD []
  s.modTile m.1 fun x =>
    let x := x.fillPart m.2 sec
    (x.setCtx m.2 (i.context asid (x.ctx m.2))).dropLines m.2

/-- A load sets the boundaries of the tiles on which both contexts are EMPTY before it (R71). -/
def State.setBounds (s : State) (l : Places) (own : TileId → Nat) : State :=
  s.each l fun s m => s.modTile m.1 fun x => x.bounded m.2 (own m.1)

/-- A zone's phase records are reset at a load (R394). -/
def State.clearRecords (s : State) (z : BitVec 3) : State :=
  { s with power := { s.power with recs := s.power.recs.filter fun e => e.1 / 256 ≠ z.toNat } }

/-- The sets of a zone in the regions that a joining load adds: the masks that the joining image declares for them (R270; assumption
76). -/
def State.joinSets (s : State) (z : BitVec 3) (l : Places) (sets : List (SMap (BitVec 144))) : State :=
  let zn := s.zone z
  let new := s.mcNew z l
  (s.putSets new zn.mcBase (sets.take zn.mcCount)).modZone z fun x => { x with mcRegions := x.mcRegions ++ new }

/-- Carry a load out (R243, R270, R426). -/
def State.applyLoad (s : State) (asid : BitVec 12) (p : LoadPlan) : State :=
  let z := p.img.zone
  let zs := s.zonesOf p.places
  let s := s.setBounds p.places fun _ => p.img.own
  let s := s.each p.places State.vacate
  let s := s.each zs State.zoneEmptied
  let s := s.each p.places fun s m => s.loadTile p.img asid m
  let s := if p.joins then s.joinSets z p.places p.img.sets
    else (s.modZone z fun _ =>
        { Zone.reset with job := asid.toNat, laneMask := p.img.laneMask, mcBase := p.base, mcCount := p.img.sets.length
                          mcRegions := placeRegions p.places }).putSets (placeRegions p.places) p.base p.img.sets
  s.each zs fun s o => s.settle o

/-- The parameters of LOAD and PROOF. -/
def loadFields (sel : BitVec 2) (asid : BitVec 12) : ImageSource → List (Nat × Nat × Nat)
  | .host l => [(0, 1, 1), (1, 1, sel.toNat), (2, 2, asid.toNat), (16, 8, l.length)]
  | .hostFailed n => [(0, 1, 1), (1, 1, sel.toNat), (2, 2, asid.toNat), (16, 8, n)]
  | .package a n => [(0, 1, 0), (1, 1, sel.toNat), (2, 2, asid.toNat), (8, 8, a), (16, 8, n)]

/-- The domains that an image's place needs. -/
def State.imageDomains (s : State) : ImageSource → List Nat
  | .host _ | .hostFailed _ => []
  | .package a n => s.needRange a n

/-- The domains that a load needs: first those that hold the image, then those of the tiles it names (R389). -/
def State.loadDomains (s : State) (sel : Nat) (asid : BitVec 12) (src : ImageSource) : List Nat :=
  match s.imageDomains src with
  | [] => match s.checkLoad sel asid src with
    | .ok (_, p) => placeDomains (p.places.map (·.1))
    | .error _ => []
  | l => l

/-- PROOF (R431): the checks of a load, without a change of state. -/
def execProof (h : CmdHdr) (ctxSel : BitVec 2) (asid : BitVec 12) (img : ImageSource) (s : State) : Res :=
  .next (s.onCmdNeeds h 0x0201 (loadFields ctxSel asid img) (s.imageDomains img) fun s =>
    match s.checkLoad ctxSel.toNat asid img with
    | .error e => s.reply h 0x0201 e.1 e.2.1 (BitVec.ofNat 128 e.2.2)
    | .ok _ => s.ok h 0x0201)

/-- LOAD (R425, R426). -/
def execLoad (h : CmdHdr) (ctxSel : BitVec 2) (asid : BitVec 12) (img : ImageSource) (s : State) : Res :=
  .next (s.onCmdNeeds h 0x0202 (loadFields ctxSel asid img) (s.loadDomains ctxSel.toNat asid img) fun s =>
    match s.checkLoad ctxSel.toNat asid img with
    | .error e => s.reply h 0x0202 e.1 e.2.1 (BitVec.ofNat 128 e.2.2)
    | .ok (s, p) =>
      let c := ((p.places.head?).map (·.2)).getD false
      ((s.applyLoad asid p).clearRecords p.img.zone).ok h 0x0202 (packAt 0 [(0, b2n c), (1, p.img.zone.toNat)]))

/-! ### Pairing and lane grants (R253, R271) -/

/-- The conditions of R253 hold for guest g on host h. -/
def State.pairOk (s : State) (h g : BitVec 3) : Bool :=
  decide (h ≠ g) && decide (s.members g ≠ []) && decide ((s.zone h).role ≠ 2) && decide ((s.zone g).role ≠ 1) &&
  ((s.zone h).pair.isNone || decide ((s.zone h).pair = some g)) && ((s.zone g).pair.isNone || decide ((s.zone g).pair = some h)) &&
  (s.members g).all fun m => !(s.ctx m.1 m.2).storesLive && (s.members h).any fun o => o.1 = m.1

/-- Put a pairing in force. -/
def State.setPair (s : State) (h g : BitVec 3) (budget : Nat) : State :=
  (s.modZone h fun z => { z with role := 1, pair := some g }).modZone g fun z =>
    { z with role := 2, pair := some h, budget := BitVec.ofNat 20 budget }

/-- A lane of a mask that another zone holds in one of some regions, and the region (R271). -/
def State.laneConflict (s : State) (z : BitVec 3) (partner : Option (BitVec 3)) (mask : BitVec 128) (gs : List Nat) :
    Option (Nat × Nat) :=
  (List.range 128).findSome? fun lane =>
    if mask.getLsbD lane then
      (gs.find? fun g => allZones.any fun o =>
        decide (o ≠ z) && decide (some o ≠ partner) && (s.zone o).granted lane g).map
      fun g => (lane, g)
    else none

/-- Grant a zone its lanes in every region where it has a member, or name the conflict. -/
def State.grantLanes (s : State) (z : BitVec 3) (partner : Option (BitVec 3)) : Except Nat State :=
  match s.laneConflict z partner (s.zone z).laneMask (placeRegions (s.members z)) with
  | some c => .error (c.1 + 256 * c.2)
  | none => .ok (s.modZone z fun x => { x with lanes := (x.lanes ++ placeRegions (s.members z)).eraseDups })

/-- The budget of a command, 500 µs by default (R253). -/
def budgetOf (b : Option (BitVec 32)) : Nat := match b with
  | some v => v.toNat
  | none => 500

/-- The budget parameter at P+4, present with EXPERT. -/
def budgetField (b : Option (BitVec 32)) : List (Nat × Nat × Nat) := match b with
  | some v => [(4, 4, v.toNat)]
  | none => []

/-- PAIR (R253, R271): a guest that has run takes its lanes again. -/
def execPair (h : CmdHdr) (hostZone guest : BitVec 3) (budget : Option (BitVec 32)) (s : State) : Res :=
  if h.expert ≠ budget.isSome then .next s
  else .next (s.onCmd h 0x0301 ([(0, 1, hostZone.toNat), (1, 1, guest.toNat)] ++ budgetField budget) fun s =>
    if budgetOf budget > 1048575 then s.fail h 0x0301 stField 20
    else if ¬ s.pairOk hostZone guest then s.fail h 0x0301 stPairing guest.toNat
    else
      let again := decide ((s.zone guest).lanes = []) &&
        (s.members guest).any fun m => (s.ctx m.1 m.2).begun && !(s.ctx m.1 m.2).phase.ended
      let p := s.setPair hostZone guest (budgetOf budget)
      if again then match p.grantLanes guest (some hostZone) with
        | .error e => s.fail h 0x0301 stLanes e
        | .ok p => p.ok h 0x0301
      else p.ok h 0x0301)

/-- UNPAIR (R422, R424): it takes effect when no bubble of the pair is in progress. -/
def execUnpair (h : CmdHdr) (hostZone : BitVec 3) (s : State) : Res :=
  .next (s.onCmd h 0x0302 [(0, 1, hostZone.toNat)] fun s =>
    if (s.zone hostZone).role ≠ 1 then s.fail h 0x0302 stState hostZone.toNat
    else if (s.zone hostZone).bubble.isNone then (s.endPair hostZone id).ok h 0x0302
    else
      let ms := if h.timeoutMs = 0 then 2000 else h.timeoutMs.toNat
      (s.modZone hostZone fun z => { z with unpair := true }).wait h 0x0302 (.unpair hostZone)
        (some (s.time + BitVec.ofNat 64 (100000 * ms))))

/-! ### START (R202, R203, R424, R499) -/

/-- A LOADED member is started, with its arguments; one that has not run yet begins at its entry address, one that has
resumes where it stands (R203, R254, R261). -/
def Ctx.start (y : Ctx) (args : List Word) : Ctx :=
  { y with started := true, pc := if y.begun then y.pc else y.entry,
           args := (numbered 0 (args.take 4)).foldl (fun m e => SMap.put 0 m e.1 e.2) [] }

/-- START's parameters. -/
def startFields (p : StartParams) : List (Nat × Nat × Nat) :=
  [(0, 1, p.zone.toNat), (1, 1, b2n p.guest), (2, 1, p.hostZone.toNat)] ++ budgetField p.budget ++
  (List.range 4).map fun i => (16 + 8 * i, 8, (p.args.getD i 0).toNat)

/-- Start the members, and send the start releases (R424, R499). -/
def State.startZone (s : State) (z : BitVec 3) (args : List Word) : State :=
  let s := s.modZone z fun x => { x with started := true }
  let s := s.each (s.members z) fun s m =>
    if (s.ctx m.1 m.2).phase = .loaded then s.modCtx m.1 m.2 fun y => y.start args else s
  let s := s.each (s.members z) fun s m => s.startRelease m.1
  s.settle z

/-- START. -/
def execStart (h : CmdHdr) (p : StartParams) (s : State) : Res :=
  if h.expert ≠ p.budget.isSome then .next s
  else .next (s.onCmd h 0x0203 (startFields p) fun s =>
    let z := p.zone
    if budgetOf p.budget > 1048575 then s.fail h 0x0203 stField 20
    else if (s.zone z).aborted ∨ (s.members z).all (fun m => (s.ctx m.1 m.2).phase ≠ .loaded) then
      s.fail h 0x0203 stState z.toNat
    else if p.guest ∧ ¬ s.pairOk p.hostZone z then s.fail h 0x0203 stPairing z.toNat
    else
      let t := if p.guest then s.setPair p.hostZone z (budgetOf p.budget) else s
      match t.grantLanes z (t.zone z).pair with
      | .error e => s.fail h 0x0203 stLanes e
      | .ok t => (t.startZone z p.args).ok h 0x0203)

/-! ### Latched requests (R259, R262, R379, R427) -/

/-- Two requests of one kind. -/
def ReqKind.same (a b : ReqKind) : Bool :=
  match a, b with
  | .yield, .yield => true
  | .stop, .stop => true
  | .evict _, .evict _ => true
  | _, _ => false

/-- The opcode of a request's command. -/
def ReqKind.opcode : ReqKind → BitVec 16
  | .stop => 0x0204
  | .yield => 0x0205
  | .evict _ => 0x0206

/-- A dropped request's command replies ABORTED, unless it has replied TIMEOUT. -/
def State.abortReq (s : State) (r : ZoneReq) : State :=
  if r.deadline.isSome then s.fail ⟨r.queue, r.seq, false, false, 0⟩ r.kind.opcode stAborted else s

/-- The conditions that a request meets before it is latched: status and DETAIL of the first that fails (R257, R265,
R379). -/
def State.reqError (s : State) (z : BitVec 3) (any : Bool) : Option (Nat × Nat) :=
  let x := s.xgroup z
  if s.members z = [] ∨ (s.zone z).aborted then some (stState, z.toNat)
  else if x.enabled && !x.isRoot then some (stNotRoot, x.root.toNat)
  else if any && (s.members z).any (fun m => (s.ctx m.1 m.2).storesLive) then some (stStoresLive, z.toNat)
  else none

/-- Latch a request; an earlier one of its kind gives way (R259, R427). -/
def State.latch (s : State) (h : CmdHdr) (z : BitVec 3) (kind : ReqKind) (any : Bool) : State :=
  let ms := if h.timeoutMs = 0 then 2000 else h.timeoutMs.toNat
  let r : ZoneReq :=
    { kind := kind, any := any, queue := h.queue, seq := h.seq,
      deadline := some (s.time + BitVec.ofNat 64 (100000 * ms)) }
  let old := (s.zone z).reqs.filter fun q => q.kind.same kind
  let s := s.modZone z fun x => { x with reqs := x.reqs.filter (fun q => !q.kind.same kind) ++ [r] }
  s.each old State.abortReq

/-- A forced stop (R262): members outside an exchange stop now, the others at its end, and the zone aborts. -/
def State.forceStop (s : State) (z : BitVec 3) : State :=
  let s := s.dropRequests z
  let live := (s.members z).filter fun m => ¬ (s.ctx m.1 m.2).phase.ended
  let count := (live.head?.map fun m => (s.ctx m.1 m.2).supersteps.toNat).getD 0
  let origin := s.log.next.toNat
  let s := s.record 0x010A 0 3 z.toNat false 0 1
    (detail [(32, z.toNat), (36, count), (40, 0xFFFFFFFF), (48, live.length)])
  let now := live.filter fun m => ¬ s.inExchange m.1 m.2
  let s := s.each now fun s m => (s.stopCtx m.1 m.2).openWindow 0 m.1.toNat m.1 m.2 true 1 none
  (s.zoneAbort z origin).settle z

/-- STOP (R259, R262). -/
def execStop (h : CmdHdr) (zone : BitVec 3) (force any : Bool) (s : State) : Res :=
  .next (s.onCmd h 0x0204 [(0, 1, zone.toNat), (1, 1, b2n force + 2 * b2n any)] fun s =>
    match s.reqError zone any with
    | some e => s.fail h 0x0204 e.1 e.2
    | none => if force then (s.forceStop zone).ok h 0x0204 else s.latch h zone .stop any)

/-- YIELD (R259). -/
def execYield (h : CmdHdr) (zone : BitVec 3) (any : Bool) (s : State) : Res :=
  .next (s.onCmd h 0x0205 [(0, 1, zone.toNat), (1, 1, 2 * b2n any)] fun s =>
    match s.reqError zone any with
    | some e => s.fail h 0x0205 e.1 e.2
    | none => s.latch h zone .yield any)

/-- CANCEL (R424, R427). -/
def execCancel (h : CmdHdr) (zone : BitVec 3) (s : State) : Res :=
  .next (s.onCmd h 0x0209 [(0, 1, zone.toNat)] fun s =>
    let l := (s.zone zone).reqs
    let has (k : ReqKind) : Nat := b2n (l.any fun r => r.kind.same k)
    let s := s.modZone zone fun x => { x with reqs := [] }
    (s.each l State.abortReq).ok h 0x0209 (has .yield + 2 * has .stop + 4 * has (.evict 0)))

/-- UNLOAD (R424, R427). -/
def execUnload (h : CmdHdr) (zone : BitVec 3) (s : State) : Res :=
  .next (s.onCmd h 0x0208 [(0, 1, zone.toNat)] fun s =>
    let s := s.dropRequests zone
    let l := s.members zone
    if l.any fun m => (s.ctx m.1 m.2).phase = .active then s.fail h 0x0208 stState zone.toNat
    else
      let s := s.each l fun s m => s.emptyCtx m.1 m.2 true
      (s.afterEmpty [zone] ((l.map fun m => clusterOf m.1).eraseDups)).ok h 0x0208)

/-! ### Evictions (R260) -/

/-- Bytes of a save area that one tile needs. -/
def saveSlot (own : Nat) : Nat := own * 65536 + 16384

/-- OWN_SIZE of a context. -/
def Tile.ownSize (x : Tile) (c : Bool) : Nat := x.partSize c / 65536

/-- Bytes that an eviction of a zone needs. -/
def State.saveNeed (s : State) (z : BitVec 3) : Nat :=
  (s.members z).foldl (fun n m => n + saveSlot ((s.tile m.1).ownSize m.2)) 0

/-- EVICT (R259, R260). -/
def execEvict (h : CmdHdr) (zone : BitVec 3) (any : Bool) (area len : Nat) (s : State) : Res :=
  .next (s.onCmdNeeds h 0x0206 [(0, 1, zone.toNat), (1, 1, 2 * b2n any), (8, 8, area), (16, 8, len)]
      (s.needRange area (min len (s.saveNeed zone))) fun s =>
    match s.reqError zone any with
    | some e => s.fail h 0x0206 e.1 e.2
    | none =>
      if s.memory.intlvBusy then s.fail h 0x0206 stMemBusy
      else if ¬ s.inPackage area len then s.fail h 0x0206 stBadAddr
      else if len < s.saveNeed zone then s.fail h 0x0206 stNoSpace (s.saveNeed zone)
      else s.latch h zone (.evict area) any)

/-- The stream and post engines of an evicted context have come to rest (R260, step 2). -/
def Ctx.saveReady (y : Ctx) : Bool :=
  y.saving && decide (y.phase = .loaded) && decide (y.postQ = []) &&
  y.stream.all fun o => decide (o.batches = []) && (match o.phase with
    | .running => false
    | _ => true)

/-- What is saved of a context (R260). -/
def State.savedCtx (s : State) (t : TileId) (c : Bool) : SavedCtx :=
  let x := s.tile t
  let lo := x.partBase c
  let hi := lo + x.partSize c
  { tile := t, fromB := c, own := x.ownSize c, ctx := x.ctx c,
    sp := (x.sp.filter fun e => lo ≤ e.1 ∧ e.1 < hi).map fun e => (e.1 - lo, e.2),
    spErr := (x.spErr.filter fun e => lo ≤ 8 * e.1 ∧ 8 * e.1 < hi).map fun e => (e.1 - lo / 8, e.2) }

/-- `n` bytes that nothing fixes. -/
def State.freeBytes (s : State) (n : Nat) : State × List Byte :=
  ({ s with free := s.free + n }, (List.range n).map fun i => BitVec.ofNat 8 (Config.freeValue (s.free + i)))

/-- The cells of package memory in a range. -/
def State.cellsIn (s : State) (a n : Nat) : List Host.Cell := s.memory.bytes.filter fun e => a ≤ e.1 ∧ e.1 < a + n

/-- A new save area for a zone. -/
def State.newArea (s : State) (z : BitVec 3) : SaveArea :=
  let zn := s.zone z
  { addr := zn.evictArea, len := 0, zone := z, job := zn.job, role := zn.role, pair := zn.pair, budget := zn.budget,
    sysSize := s.host.sysSize, zoneMap := s.host.zoneMap, laneMask := zn.laneMask, mcCount := zn.mcCount,
    mcast := numbered 0 (s.zoneSets z), items := [], image := [] }

/-- The saved bytes land in the area, in a layout that is the device's own. -/
def State.writeSave (s : State) (t : TileId) (c : Bool) : State :=
  let z := (s.ctx t c).zone
  let at' := (s.zone z).evictArea
  let first := (s.members z).all fun m => (s.ctx m.1 m.2).phase ≠ .evicted
  let old := s.host.saves.find? fun a => a.addr = at'
  let area := if first then s.newArea z else old.getD (s.newArea z)
  let it := s.savedCtx t c
  let n := saveSlot it.own
  let r := s.freeBytes n
  let s := r.1.pkgWrite (at' + area.len) r.2 fun _ => false
  let area := { area with len := area.len + n, items := area.items ++ [it], image := s.cellsIn at' (area.len + n) }
  { s with host := { s.host with saves := (s.host.saves.filter fun a => a.addr ≠ at') ++ [area] } }

/-- When the last member is saved, EVICT replies with the bytes saved (R260, R424). -/
def State.evictDone (s : State) (z : BitVec 3) : State :=
  if (s.members z).any fun m => (s.ctx m.1 m.2).saving then s
  else
    let n := ((s.host.saves.find? fun a => a.addr = (s.zone z).evictArea).map (·.len)).getD 0
    let w := (s.zone z).evictWait
    let s := s.modZone z fun x => { x with evictWait := none }
    let s := match w with
      | some r => s.replyReq r n
      | none => s
    s.settle z

/-- EVICT_SAVE_DONE: a context's save completes and it enters EVICTED (R260, step 5); a landing in its rings completes before (R300). -/
def execEvictSaveDone (t : TileId) (ctx : Bool) (s : State) : Res :=
  let y := s.ctx t ctx
  if y.saveReady && !s.post.landing.any fun l => l.into t ctx then
    let z := y.zone
    match s.rangeAsleep (s.globalAddr (s.zone z).evictArea) (s.saveNeed z) with
    | [] =>
      let s := s.writeSave t ctx
      let s := s.modCtx t ctx fun y => { y with phase := .evicted, saving := false, stream := [], gate := .none }
      .next ((s.evictDone z).applySubst (clusterOf t))
    | l => .next (s.each l fun s m => s.switchOn (hbmDomain m))
  else .next s

/-! ### RESTORE (R261) -/

/-- The context that a save area left EVICTED on a tile. -/
def State.evictedHere (s : State) (a : SaveArea) (t : TileId) (c : Bool) : Bool :=
  let y := s.ctx t c
  decide (y.phase = .evicted) && decide (y.zone = a.zone) && decide ((s.zone a.zone).job = a.job)

/-- The save area at an address, as the device wrote it. -/
def State.saveAt (s : State) (addr : Nat) : Option SaveArea :=
  s.host.saves.find? fun a =>
    decide (a.addr = addr) && decide (s.cellsIn a.addr a.len = a.image) &&
    (gransOf a.addr a.len).all fun g => decide (s.granErr g = .ok) || decide (s.granErr g = .single) || decide (s.granErr g = .onDie)

/-- The size that was saved of a tile (R261). -/
def SaveArea.ownAt (a : SaveArea) (t : TileId) : Nat := ((a.items.find? fun i => i.tile = t).map (·.own)).getD 0

/-- The checks of a restore: the contexts to fill and the base of the sets (R261, R425, R430). -/
def State.restorePlan (s : State) (sel : Nat) (a : SaveArea) : Except CmdError (Places × Nat) :=
  let ts := a.items.map (·.tile)
  let diff := 8 * b2n (decide (a.sysSize ≠ s.host.sysSize)) + 16 * b2n (decide (a.zoneMap ≠ s.host.zoneMap))
  if diff ≠ 0 then .error (stFingerprint, diff, 0)
  else match ts.findSome? fun t => (s.clusterBar t).map fun e => (e, t.toNat) with
    | some e => .error (e.1, e.2, 0)
    | none =>
      match s.placeAll sel a.ownAt (fun t c => decide ((s.ctx t c).phase = .empty) || s.evictedHere a t c) ts with
      | .error e => .error e
      | .ok l =>
        let gone := (s.members a.zone).filter fun m => s.evictedHere a m.1 m.2
        let others := (s.members a.zone).filter fun m => !gone.contains m
        if (s.zone a.zone).aborted then .error (stState, a.zone.toNat, 0)
        else if s.zoneConflict a.zone a.job others l then .error (stZone, a.zone.toNat, 0)
        else
          match s.mcBaseFor a.zone l (decide (s.members a.zone = [])) a.mcCount, s.xcalBar l with
          | none, _ => .error (stMulticast, ((placeRegions l).head?).getD 0, 0)
          | _, some g => .error (stXcal, g, 0)
          | some b, none => .ok (l, b)

/-- The rings of a restored context: unparked, with the drops that its EVICTED context has counted. -/
def restoredRings (saved now : SMap PostRing) (evicted : Bool) : SMap PostRing :=
  (List.range 9).foldl (fun r k =>
    let p := SMap.get PostRing.reset saved k
    let d := if evicted then (SMap.get PostRing.reset now k).drops else p.drops
    SMap.put PostRing.reset r k { p with parked := false, drops := d }) saved

/-- The context that a restore leaves; what its stream and post engines hold is now the work of context c (R261, R341). -/
def SavedCtx.context (i : SavedCtx) (c : Bool) (rings : SMap PostRing) : Ctx :=
  { i.ctx with phase := .loaded, rings := rings, streamHold := false, saving := false, lastEnd := 4, gate := .none
               stream := i.ctx.stream.map fun o => { o with op := { o.op with ctx := c } }
               postQ := i.ctx.postQ.map fun o => { o with ctx := c } }

/-- Restore one context. -/
def State.restoreTile (s : State) (a : SaveArea) (m : TileId × Bool) : State :=
  match a.items.find? fun i => i.tile = m.1 with
  | none => s
  | some i =>
    let old := [false, true].find? fun c => s.evictedHere a m.1 c
    let rings := restoredRings i.ctx.rings (s.ctx m.1 (old.getD false)).rings old.isSome
    let s := match old with
      | some c => s.emptyCtx m.1 c true
      | none => s
    let mark := (s.ctx m.1 m.2).halted
    s.modTile m.1 fun x =>
      let x := x.fillPart m.2 []
      let base := x.partBase m.2
      let x := { x with sp := i.sp.foldl (fun l (e : Host.Cell) => SMap.put 0 l (base + e.1) e.2) x.sp
                        spErr := i.spErr.foldl (fun l (e : Nat × WordErr) => SMap.put .ok l (base / 8 + e.1) e.2) x.spErr }
      (x.setCtx m.2 { i.context m.2 rings with halted := mark }).dropLines m.2

/-- The pairing of a restored zone comes back where its partner still meets R253. -/
def State.repair (s : State) (a : SaveArea) : State :=
  match a.pair with
  | some p =>
    if a.role = 2 ∧ s.pairOk p a.zone then s.setPair p a.zone a.budget.toNat
    else if a.role = 1 ∧ s.pairOk a.zone p then s.setPair a.zone p (s.zone p).budget.toNat
    else s
  | none => s

/-- Carry a restore out. A restored guest may run in its host's next bubble, with its lanes granted again (R261, R271). -/
def State.applyRestore (s : State) (a : SaveArea) (l : Places) (base : Nat) : Except Nat State :=
  let fresh := decide (s.members a.zone = [])
  let s : State := (s.setBounds l a.ownAt).each l fun s m => s.restoreTile a m
  let s := if fresh then
      let z : Zone := { Zone.reset with job := a.job, laneMask := a.laneMask, mcBase := base, mcCount := a.mcCount
                                        mcRegions := placeRegions l }
      ((s.modZone a.zone fun _ => z).putSets (placeRegions l) base (a.mcast.map (·.2))).repair a
    else s.joinSets a.zone l (a.mcast.map (·.2))
  let s : State := { s with host := { s.host with saves := s.host.saves.filter fun b => b.addr ≠ a.addr } }
  if (s.zone a.zone).role = 2 then
    match s.grantLanes a.zone (s.zone a.zone).pair with
    | .error e => .error e
    | .ok s => .ok (s.modZone a.zone fun z => { z with started := true })
  else .ok s

/-- The domains that a restore needs. -/
def State.restoreDomains (s : State) (sel area : Nat) : List Nat :=
  match s.host.saves.find? fun a => a.addr = area with
  | none => []
  | some a => match s.needRange a.addr a.len with
    | [] => match s.saveAt area with
      | none => []
      | some a => match s.restorePlan sel a with
        | .ok (l, _) => placeDomains (l.map (·.1))
        | .error _ => []
    | l => l

/-- RESTORE (R261, R425). -/
def execRestore (h : CmdHdr) (ctxSel : BitVec 2) (area : Nat) (s : State) : Res :=
  .next (s.onCmdNeeds h 0x0207 [(0, 1, ctxSel.toNat), (8, 8, area)] (s.restoreDomains ctxSel.toNat area) fun s =>
    if s.memory.intlvBusy then s.fail h 0x0207 stMemBusy
    else if area ≥ s.capacity then s.fail h 0x0207 stBadAddr
    else match s.saveAt area with
      | none => s.fail h 0x0207 stSaveAltered
      | some a => match s.restorePlan ctxSel.toNat a with
        | .error e => s.fail h 0x0207 e.1 e.2.1
        | .ok (l, base) => match s.applyRestore a l base with
          | .error e => s.fail h 0x0207 stLanes e
          | .ok t =>
            (t.settle a.zone).ok h 0x0207 (packAt 0 [(0, b2n (((l.head?).map (·.2)).getD false)), (1, a.zone.toNat)]))

/-! ### PRIORITY (R308, R424) -/

/-- Write the shadows that a PRIORITY names. -/
def State.writeShadows (s : State) (cls : Nat) (n : BitVec 8) (map : Option (List (BitVec 16))) : State :=
  let a := s.arb
  let a := if n = 0 then a else { a with nShadow := SMap.put 8 a.nShadow cls (n.extractLsb' 0 7) }
  let a := match map with
    | some l =>
      let m := (numbered 0 (l.take (arbInputs cls))).foldl (fun m e => mapPut m cls e.1 (e.2.extractLsb' 0 9)) a.mapShadow
      { a with mapShadow := m }
    | none => a
  { s with arb := a }

/-- The packet names a map, or none. -/
def State.mapNamed (s : State) (h : CmdHdr) (fields : List (Nat × Nat × Nat)) (b : Bool) : Bool :=
  (s.queue h.queue).started.any fun e => e.isFor h 0x020A fields && decide ((cmdField e.packet 24 8 ≠ 0) = (b = true))

/-- PRIORITY: while an earlier commit is in progress the command waits to be presented again. -/
def execPriority (h : CmdHdr) (cls : Nat) (n : BitVec 8) (map : Option (List (BitVec 16))) (s : State) : Res :=
  let fields := [(0, 1, cls), (1, 1, n.toNat)]
  if s.arb.busy || !s.mapNamed h fields map.isSome then .next s
  else .next (s.onCmd h 0x020A fields fun s =>
    let w : Waiter := { hdr := h, opcode := 0x020A, kind := .priority, deadline := none }
    let t := ((s.writeShadows cls n map).wait h 0x020A .priority).arbCommit
    if t.arb.commits = s.arb.commits then (t.unwait w).fail h 0x020A stField (if map.isSome then 24 else 17) else t)

/-! ### External sync groups (R373, R378, R379, R384) -/

/-- GROUP_CREATE (R373): at the root the sweep runs after the reply. -/
def execGroupCreate (h : CmdHdr) (zone : BitVec 3) (gid root : BitVec 16) (s : State) : Res :=
  .next (s.onCmd h 0x0303 [(0, 1, zone.toNat), (2, 2, gid.toNat), (4, 2, root.toNat)] fun s =>
    let r : BitVec 15 := root.extractLsb' 0 15
    let own := decide (r = s.fabric.devId)
    if s.isTn6 r.toNat then s.fail h 0x0303 stGroupKind r.toNat
    else if (s.xgroup zone).enabled || allZones.any (fun z => (s.xgroup z).enabled && decide ((s.xgroup z).gid = gid.toNat)) then
      s.fail h 0x0303 stGroupId gid.toNat
    else match s.buildTree zone r with
      | none => s.fail h 0x0303 stState zone.toNat
      | some s =>
        let s := s.writeXsyncCfg zone (BitVec.ofNat 32 (2 ^ 31 + b2n own * 2 ^ 30 + gid.toNat)) (some r)
        (s.ok h 0x0303).startSweep zone)

/-- GROUP_DELETE (R424). -/
def execGroupDelete (h : CmdHdr) (zone : BitVec 3) (s : State) : Res :=
  .next (s.onCmd h 0x0304 [(0, 1, zone.toNat)] fun s =>
    if (s.xgroup zone).enabled then (s.writeXsyncCfg zone 0).ok h 0x0304 else s.fail h 0x0304 stState zone.toNat)

/-- GROUP_ABORT: cause HOST (R378). -/
def execGroupAbort (h : CmdHdr) (zone : BitVec 3) (s : State) : Res :=
  .next (s.onCmd h 0x0305 [(0, 1, zone.toNat)] fun s =>
    if (s.xgroup zone).enabled then
      let origin := s.log.next.toNat
      ((s.groupAbort zone 4 none).zoneAbort zone origin).ok h 0x0305
    else s.fail h 0x0305 stState zone.toNat)

/-- GROUP_SWEEP: it replies when the sweep ends (R384, R424). -/
def execGroupSweep (h : CmdHdr) (zone : BitVec 3) (s : State) : Res :=
  .next (s.onCmd h 0x0306 [(0, 1, zone.toNat)] fun s =>
    let x := s.xgroup zone
    if ¬ x.enabled ∨ x.state = 3 then s.fail h 0x0306 stState zone.toNat
    else if ¬ x.isRoot then s.fail h 0x0306 stNotRoot x.root.toNat
    else
      let s := s.wait h 0x0306 (.sweep zone)
      s.startSweep zone)

end Sys2Proof.Machine
end

