-- ==== Sys2Proof/Machine/Scalar.lean ====
section
/-! DEFINITION. The instructions the scalar core executes itself (R171–R203). -/

namespace Sys2Proof.Machine

/-! ### Integer instructions (R177–R179) -/

def boolWord (b : Bool) : Word := if b then 1 else 0

/-- Leading zero bits of a word (R177). -/
def clz64 (v : Word) : Nat := if v = 0 then 64 else 63 - Nat.log2 v.toNat
/-- Trailing zero bits of a word (R177). -/
def ctz64 (v : Word) : Nat := ((List.range 64).find? fun i => v.getLsbD i).getD 64
/-- One bits of a word (R177). -/
def popc64 (v : Word) : Nat := ((List.range 64).filter fun i => v.getLsbD i).length

/-- DIV (R178). -/
def div64 (a b : Word) : Word :=
  if b = 0 then -1 else if a = BitVec.intMin 64 ∧ b = -1 then BitVec.intMin 64 else BitVec.ofInt 64 (a.toInt.tdiv b.toInt)
/-- DIVU (R178). -/
def divu64 (a b : Word) : Word := if b = 0 then -1 else BitVec.ofNat 64 (a.toNat / b.toNat)
/-- REM (R178). -/
def rem64 (a b : Word) : Word :=
  if b = 0 then a else if a = BitVec.intMin 64 ∧ b = -1 then 0 else a - div64 a b * b
/-- REMU (R178). -/
def remu64 (a b : Word) : Word := if b = 0 then a else a - BitVec.ofNat 64 (a.toNat / b.toNat) * b

/-- EXT: narrows and extends as selected (R179); the reserved codes do not decode. -/
def ext64 (sel : BitVec 3) (v : Word) : Word :=
  match sel.toNat with
  | 0 => zextBytes 1 v.toNat
  | 1 => zextBytes 2 v.toNat
  | 2 => zextBytes 4 v.toNat
  | 4 => sextBytes 1 v.toNat
  | 5 => sextBytes 2 v.toNat
  | 6 => sextBytes 4 v.toNat
  | _ => v

/-- The shift amount of a register (R177). -/
def sh6 (v : Word) : Nat := bits v.toNat 0 6

/-- A register-register instruction. -/
def State.alu (s : State) (t : TileId) (rd rs1 rs2 : RegNo) (f : Word → Word → Word) : Res :=
  s.issueRd t rd fun y => f (y.reg rs1) (y.reg rs2)
/-- An instruction with the 44-bit immediate, sign-extended (R173). -/
def State.aluImm (s : State) (t : TileId) (rd rs1 : RegNo) (imm : BitVec 44) (f : Word → Word → Word) : Res :=
  s.issueRd t rd fun y => f (y.reg rs1) (imm.signExtend 64)

def execAdd (t : TileId) (rd rs1 rs2 : RegNo) (s : State) : Res := s.alu t rd rs1 rs2 (· + ·)
def execSub (t : TileId) (rd rs1 rs2 : RegNo) (s : State) : Res := s.alu t rd rs1 rs2 (· - ·)
def execAnd (t : TileId) (rd rs1 rs2 : RegNo) (s : State) : Res := s.alu t rd rs1 rs2 (· &&& ·)
def execOr (t : TileId) (rd rs1 rs2 : RegNo) (s : State) : Res := s.alu t rd rs1 rs2 (· ||| ·)
def execXor (t : TileId) (rd rs1 rs2 : RegNo) (s : State) : Res := s.alu t rd rs1 rs2 (· ^^^ ·)
def execSll (t : TileId) (rd rs1 rs2 : RegNo) (s : State) : Res := s.alu t rd rs1 rs2 fun a b => a <<< sh6 b
def execSrl (t : TileId) (rd rs1 rs2 : RegNo) (s : State) : Res := s.alu t rd rs1 rs2 fun a b => a >>> sh6 b
def execSra (t : TileId) (rd rs1 rs2 : RegNo) (s : State) : Res := s.alu t rd rs1 rs2 fun a b => a.sshiftRight (sh6 b)
def execSlt (t : TileId) (rd rs1 rs2 : RegNo) (s : State) : Res := s.alu t rd rs1 rs2 fun a b => boolWord (a.slt b)
def execSltu (t : TileId) (rd rs1 rs2 : RegNo) (s : State) : Res := s.alu t rd rs1 rs2 fun a b => boolWord (a.ult b)
def execMin (t : TileId) (rd rs1 rs2 : RegNo) (s : State) : Res :=
  s.alu t rd rs1 rs2 fun a b => if a.slt b then a else b
def execMax (t : TileId) (rd rs1 rs2 : RegNo) (s : State) : Res :=
  s.alu t rd rs1 rs2 fun a b => if a.slt b then b else a
def execMinu (t : TileId) (rd rs1 rs2 : RegNo) (s : State) : Res :=
  s.alu t rd rs1 rs2 fun a b => if a.ult b then a else b
def execMaxu (t : TileId) (rd rs1 rs2 : RegNo) (s : State) : Res :=
  s.alu t rd rs1 rs2 fun a b => if a.ult b then b else a
def execMul (t : TileId) (rd rs1 rs2 : RegNo) (s : State) : Res := s.alu t rd rs1 rs2 (· * ·)
def execMulh (t : TileId) (rd rs1 rs2 : RegNo) (s : State) : Res :=
  s.alu t rd rs1 rs2 fun a b => (a.signExtend 128 * b.signExtend 128).extractLsb' 64 64
def execMulhu (t : TileId) (rd rs1 rs2 : RegNo) (s : State) : Res :=
  s.alu t rd rs1 rs2 fun a b => (a.zeroExtend 128 * b.zeroExtend 128).extractLsb' 64 64
def execDiv (t : TileId) (rd rs1 rs2 : RegNo) (s : State) : Res := s.alu t rd rs1 rs2 div64
def execDivu (t : TileId) (rd rs1 rs2 : RegNo) (s : State) : Res := s.alu t rd rs1 rs2 divu64
def execRem (t : TileId) (rd rs1 rs2 : RegNo) (s : State) : Res := s.alu t rd rs1 rs2 rem64
def execRemu (t : TileId) (rd rs1 rs2 : RegNo) (s : State) : Res := s.alu t rd rs1 rs2 remu64
def execClz (t : TileId) (rd rs1 : RegNo) (s : State) : Res := s.issueRd t rd fun y => BitVec.ofNat 64 (clz64 (y.reg rs1))
def execCtz (t : TileId) (rd rs1 : RegNo) (s : State) : Res := s.issueRd t rd fun y => BitVec.ofNat 64 (ctz64 (y.reg rs1))
def execPopc (t : TileId) (rd rs1 : RegNo) (s : State) : Res := s.issueRd t rd fun y => BitVec.ofNat 64 (popc64 (y.reg rs1))
def execAddi (t : TileId) (rd rs1 : RegNo) (imm : BitVec 44) (s : State) : Res := s.aluImm t rd rs1 imm (· + ·)
def execAndi (t : TileId) (rd rs1 : RegNo) (imm : BitVec 44) (s : State) : Res := s.aluImm t rd rs1 imm (· &&& ·)
def execOri (t : TileId) (rd rs1 : RegNo) (imm : BitVec 44) (s : State) : Res := s.aluImm t rd rs1 imm (· ||| ·)
def execXori (t : TileId) (rd rs1 : RegNo) (imm : BitVec 44) (s : State) : Res := s.aluImm t rd rs1 imm (· ^^^ ·)
def execSlli (t : TileId) (rd rs1 : RegNo) (sh : BitVec 6) (s : State) : Res :=
  s.issueRd t rd fun y => y.reg rs1 <<< sh.toNat
def execSrli (t : TileId) (rd rs1 : RegNo) (sh : BitVec 6) (s : State) : Res :=
  s.issueRd t rd fun y => y.reg rs1 >>> sh.toNat
def execSrai (t : TileId) (rd rs1 : RegNo) (sh : BitVec 6) (s : State) : Res :=
  s.issueRd t rd fun y => (y.reg rs1).sshiftRight sh.toNat
def execSlti (t : TileId) (rd rs1 : RegNo) (imm : BitVec 44) (s : State) : Res :=
  s.aluImm t rd rs1 imm fun a b => boolWord (a.slt b)
def execSltiu (t : TileId) (rd rs1 : RegNo) (imm : BitVec 44) (s : State) : Res :=
  s.aluImm t rd rs1 imm fun a b => boolWord (a.ult b)
def execLi (t : TileId) (rd : RegNo) (imm : BitVec 44) (s : State) : Res := s.issueRd t rd fun _ => imm.signExtend 64
def execLih (t : TileId) (rd rs1 : RegNo) (imm : BitVec 20) (s : State) : Res :=
  s.issueRd t rd fun y => (y.reg rs1 &&& 0x00000FFFFFFFFFFF) ||| (imm.zeroExtend 64 <<< 44)
def execPcadd (t : TileId) (rd : RegNo) (imm : BitVec 44) (s : State) : Res :=
  s.issueRd t rd fun y => y.pc + imm.signExtend 64
def execExt (t : TileId) (rd rs1 : RegNo) (sel : BitVec 3) (s : State) : Res :=
  if sel = 3 ∨ sel = 7 then s.issue t fun c s => s.illegalHere t c
  else s.issueRd t rd fun y => ext64 sel (y.reg rs1)

/-! ### Loads, stores, branches (R180–R185) -/

def execLb (t : TileId) (rd : RegNo) (a : MemArg) (s : State) : Res := s.load t rd a 1 (sextBytes 1)
def execLbu (t : TileId) (rd : RegNo) (a : MemArg) (s : State) : Res := s.load t rd a 1 (zextBytes 1)
def execLh (t : TileId) (rd : RegNo) (a : MemArg) (s : State) : Res := s.load t rd a 2 (sextBytes 2)
def execLhu (t : TileId) (rd : RegNo) (a : MemArg) (s : State) : Res := s.load t rd a 2 (zextBytes 2)
def execLw (t : TileId) (rd : RegNo) (a : MemArg) (s : State) : Res := s.load t rd a 4 (sextBytes 4)
def execLwu (t : TileId) (rd : RegNo) (a : MemArg) (s : State) : Res := s.load t rd a 4 (zextBytes 4)
def execLd (t : TileId) (rd : RegNo) (a : MemArg) (s : State) : Res := s.load t rd a 8 (zextBytes 8)
def execSb (t : TileId) (rsd : RegNo) (a : MemArg) (s : State) : Res := s.store t rsd a 1
def execSh (t : TileId) (rsd : RegNo) (a : MemArg) (s : State) : Res := s.store t rsd a 2
def execSw (t : TileId) (rsd : RegNo) (a : MemArg) (s : State) : Res := s.store t rsd a 4
def execSd (t : TileId) (rsd : RegNo) (a : MemArg) (s : State) : Res := s.store t rsd a 8
def execBeq (t : TileId) (rs1 rs2 : RegNo) (off : BitVec 24) (s : State) : Res := s.branch t rs1 rs2 off fun a b => a = b
def execBne (t : TileId) (rs1 rs2 : RegNo) (off : BitVec 24) (s : State) : Res := s.branch t rs1 rs2 off fun a b => a ≠ b
def execBlt (t : TileId) (rs1 rs2 : RegNo) (off : BitVec 24) (s : State) : Res := s.branch t rs1 rs2 off fun a b => a.slt b
def execBge (t : TileId) (rs1 rs2 : RegNo) (off : BitVec 24) (s : State) : Res := s.branch t rs1 rs2 off fun a b => !a.slt b
def execBltu (t : TileId) (rs1 rs2 : RegNo) (off : BitVec 24) (s : State) : Res := s.branch t rs1 rs2 off fun a b => a.ult b
def execBgeu (t : TileId) (rs1 rs2 : RegNo) (off : BitVec 24) (s : State) : Res :=
  s.branch t rs1 rs2 off fun a b => !a.ult b
def execJal (t : TileId) (rd : RegNo) (off : BitVec 24) (s : State) : Res :=
  s.issue t fun c s => s.modCtx t c fun y => { y.setReg rd (y.pc + 8) with pc := branchTarget y.pc off }
def execJalr (t : TileId) (rd rs1 : RegNo) (imm : BitVec 44) (s : State) : Res :=
  s.issue t fun c s => s.modCtx t c fun y =>
    { y.setReg rd (y.pc + 8) with pc := (y.reg rs1 + imm.signExtend 64) &&& ~~~7#64 }

/-! ### T_ registers (R186, R187) -/

/-- An access to T_STP_TN6 waits in M until Stipple holds no work of the context (R169). -/
def State.tn6Ready (s : State) (t : TileId) (c : Bool) : Bool := !(s.tile t).stipple.has c

def State.trd (s : State) (t : TileId) (rd : RegNo) (a : Nat) : Res :=
  s.issueUnless t (fun c => decide (a = 0x033) && !s.tn6Ready t c) fun c s =>
    (s.modCtx t c fun y => y.setReg rd (s.tRead t c a)).advance t c

/-- The post engine is landing an entry into the descriptor that a T_ address configures: a write of it waits in M (R98, R300). -/
def State.landingAt (s : State) (t : TileId) (c : Bool) (a : Nat) : Bool :=
  s.post.landing.any fun l => l.into t c && decide (a = 0x040 + 2 * (8 + bits l.msg.msg.tag.toNat 13 3))

/-- A write of a T_ register; a violating one faults as a store would (R187). -/
def State.twr (s : State) (t : TileId) (a : Nat) (v : Ctx → Word) : Res :=
  s.issueUnless t (fun c => (decide (a = 0x033) && !s.tn6Ready t c) || s.landingAt t c a) fun c s =>
    let w := v (s.ctx t c)
    match s.tWrite t c a w with
    | some s' => s'.advance t c
    | none =>
      let y := s.ctx t c
      let base := bits w.toNat 7 14 * 128
      let lim := (s.tile t).partSize c
      s.terminate t c 0x0102 (partDetail y.pc.toNat 2 (max base lim))

def execTrd (t : TileId) (rd : RegNo) (taddr : BitVec 12) (s : State) : Res := s.trd t rd taddr.toNat
def execTwr (t : TileId) (rs1 : RegNo) (taddr : BitVec 12) (s : State) : Res := s.twr t taddr.toNat fun y => y.reg rs1
def execTwri (t : TileId) (taddr : BitVec 12) (imm : BitVec 32) (s : State) : Res :=
  s.twr t taddr.toNat fun _ => imm.zeroExtend 64
/-- A write of T_CRn_CFG, the value being what the instruction wrote (R98, R187). -/
def execTCrnCfgWrite (t : TileId) (n : BitVec 4) (v : Word) (s : State) : Res :=
  s.twr t (0x040 + 2 * n.toNat) fun _ => v
def execTStpTn6Access (t : TileId) (acc : Tn6Access) (s : State) : Res :=
  match acc with
  | .read rd => s.trd t rd 0x033
  | .write rs1 => s.twr t 0x033 fun y => y.reg rs1

/-! ### Control (R188–R195) -/

def execNop (t : TileId) (s : State) : Res := s.issue t fun c s => s.advance t c

/-- ILLEGAL_INSTRUCTION: the core finds a word at D that no instruction of the manual encodes (R172). -/
def execIllegalInstruction (t : TileId) (word : Word) (s : State) : Res :=
  if oz8Illegal t word then s.issue t fun c s => s.illegal t c word else .next s

/-- BRK halts its context before it executes where HALT_ON_BRK is set, and otherwise acts as NOP; one that is issued
after RUN acts as NOP (R191, R476, R477). -/
def execBrk (t : TileId) (code : BitVec 16) (s : State) : Res :=
  match s.issuer t Gate.open with
  | some c =>
    let skip := (s.ctx t c).skipMatch
    .next (s.enterD t c fun s => if (s.tile t).haltOnBrk && !skip then s.haltCtx t c 5 0 code.toNat else s.advance t c)
  | none => .next s

/-- IBINV removes every line of the active context (R195). -/
def execIbinv (t : TileId) (s : State) : Res :=
  s.issue t fun c s => (s.modTile t fun x => x.dropLines c).advance t c

/-- TEND ends the task, or waits for the audit (R63, R193). -/
def execTend (t : TileId) (s : State) : Res :=
  s.issue t fun c s =>
    let s := s.advance t c
    if (s.tile t).audit then s.modCtx t c fun y => { y with gate := .audit } else s.taskDone t c

/-- SYNC waits in D for Burin, Stylus and Stipple to drain; then its arrival may be reported (R66, R192). -/
def execSync (t : TileId) (f : SyncFields) (s : State) : Res :=
  match s.issuer t fun g => g = .sync f with
  | some c =>
    .next (if (s.tile t).drained c then s.modCtx t c fun y => { y with gate := .arrive f } else s)
  | none =>
    s.issue t fun c s =>
      s.modCtx t c fun y => { y with gate := if (s.tile t).drained c then .arrive f else .sync f }

/-- What a SIG does once its count is there (R188). -/
def Ctx.sigDo (y : Ctx) (w : WaitSig) : Ctx := { (y.takeOpt w.wait).signalOpt w.sig with gate := .none, pc := y.pc + 8 }

/-- SIG: the wait is tested in D; where no count is left for it the core is gated, and the SIG starts when it is presented again
with a count left (R59, R60, R188). -/
def execSig (t : TileId) (w : WaitSig) (s : State) : Res :=
  match s.issuer t fun g => g = .sig w with
  | some c =>
    .next (if (s.tile t).mayTake c 0 w.wait then (s.modCtx t c fun y => y.sigDo w).countStep t c else s)
  | none =>
    s.issue t fun c s =>
      if (s.tile t).mayTake c 0 w.wait then s.modCtx t c fun y => y.sigDo w
      else s.modCtx t c fun y => { y with gate := .sig w }

/-- The audit of a task end: once every engine is idle for the context, DONE or the audit fault (R63). -/
def execAuditCheck (t : TileId) (s : State) : Res :=
  match s.issuer t fun g => g = .audit with
  | some c =>
    let x := s.tile t
    let y := x.ctx c
    if x.engBusy c = 0 then
      .next (if y.sigCount = 0 ∧ y.ovf = 0 then s.taskDone t c
             else s.terminate t c 0x0108 (detail [(32, y.sigCount), (40, y.ovf.toNat), (42, x.engBusy c % 256)]))
    else .next s
  | none => .next s

/-! ### The instruction buffer and the scrubber (R50–R52, R102) -/

/-- INSTRUCTION_FILL: a fill that a miss or a prefetch started ends: the line of the active context's partition, named by its
relative line number, is read into the buffer; an uncorrectable word in it stops the context before any instruction of the line
issues (R51, R100). -/
def execInstructionFill (t : TileId) (line : Nat) (s : State) : Res :=
  match (s.tile t).active with
  | some c =>
    let x := s.tile t
    let n := x.phys c (128 * line) / 128
    if s.tileRuns t && x.fills.contains (c, n) then
      .next ((s.countCe t (x.singles (128 * n) 128)).modTile t fun x => x.endFill c n)
    else .next s
  | none => .next s

/-- SCRUB_STEP: the scrubber reads one line, rewrites corrected words, and rewrites uncorrectable ones as poisoned
(R102). -/
def execScrubStep (t : TileId) (s : State) : Res :=
  if s.tileRuns t && (s.cluster (clusterOf t)).scrubEn then
    let x := s.tile t
    let a := x.scrubLine * 128
    let ws := wordsOf a 128
    let bad := ws.filter fun w => (x.wordErr w).bad
    let s := s.countCe t (x.singles a 128)
    let s := s.each bad fun s w => s.noteUe t w 1
    .next (s.modTile t fun x =>
      { x with scrubLine := (x.scrubLine + 1) % 16384,
               spErr := ws.foldl (fun m w => if SMap.get .ok m w = .single then SMap.put .ok m w .ok else m) x.spErr })
  else .next s

end Sys2Proof.Machine
end

