-- ==== Sys2Proof/Machine/Dispatch.lean ====
section
/-! DEFINITION. The dispatcher: one arm per constructor of Instr, each a direct call of one meaning. -/

namespace Sys2Proof.Machine

def exec (i : Instr) (s : State) : Host.Outcome State Fault Refusal :=
  match i with
  | .nop t => Sys2Proof.Machine.execNop t s
  | .brk t code => Sys2Proof.Machine.execBrk t code s
  | .ibinv t => Sys2Proof.Machine.execIbinv t s
  | .tend t => Sys2Proof.Machine.execTend t s
  | .sync t f => Sys2Proof.Machine.execSync t f s
  | .sig t w => Sys2Proof.Machine.execSig t w s
  | .fence t w scope => Sys2Proof.Machine.execFence t w scope s
  | .add t rd rs1 rs2 => Sys2Proof.Machine.execAdd t rd rs1 rs2 s
  | .sub t rd rs1 rs2 => Sys2Proof.Machine.execSub t rd rs1 rs2 s
  | .and t rd rs1 rs2 => Sys2Proof.Machine.execAnd t rd rs1 rs2 s
  | .or t rd rs1 rs2 => Sys2Proof.Machine.execOr t rd rs1 rs2 s
  | .xor t rd rs1 rs2 => Sys2Proof.Machine.execXor t rd rs1 rs2 s
  | .sll t rd rs1 rs2 => Sys2Proof.Machine.execSll t rd rs1 rs2 s
  | .srl t rd rs1 rs2 => Sys2Proof.Machine.execSrl t rd rs1 rs2 s
  | .sra t rd rs1 rs2 => Sys2Proof.Machine.execSra t rd rs1 rs2 s
  | .slt t rd rs1 rs2 => Sys2Proof.Machine.execSlt t rd rs1 rs2 s
  | .sltu t rd rs1 rs2 => Sys2Proof.Machine.execSltu t rd rs1 rs2 s
  | .min t rd rs1 rs2 => Sys2Proof.Machine.execMin t rd rs1 rs2 s
  | .max t rd rs1 rs2 => Sys2Proof.Machine.execMax t rd rs1 rs2 s
  | .minu t rd rs1 rs2 => Sys2Proof.Machine.execMinu t rd rs1 rs2 s
  | .maxu t rd rs1 rs2 => Sys2Proof.Machine.execMaxu t rd rs1 rs2 s
  | .mul t rd rs1 rs2 => Sys2Proof.Machine.execMul t rd rs1 rs2 s
  | .mulh t rd rs1 rs2 => Sys2Proof.Machine.execMulh t rd rs1 rs2 s
  | .mulhu t rd rs1 rs2 => Sys2Proof.Machine.execMulhu t rd rs1 rs2 s
  | .div t rd rs1 rs2 => Sys2Proof.Machine.execDiv t rd rs1 rs2 s
  | .divu t rd rs1 rs2 => Sys2Proof.Machine.execDivu t rd rs1 rs2 s
  | .rem t rd rs1 rs2 => Sys2Proof.Machine.execRem t rd rs1 rs2 s
  | .remu t rd rs1 rs2 => Sys2Proof.Machine.execRemu t rd rs1 rs2 s
  | .clz t rd rs1 => Sys2Proof.Machine.execClz t rd rs1 s
  | .ctz t rd rs1 => Sys2Proof.Machine.execCtz t rd rs1 s
  | .popc t rd rs1 => Sys2Proof.Machine.execPopc t rd rs1 s
  | .addi t rd rs1 imm => Sys2Proof.Machine.execAddi t rd rs1 imm s
  | .andi t rd rs1 imm => Sys2Proof.Machine.execAndi t rd rs1 imm s
  | .ori t rd rs1 imm => Sys2Proof.Machine.execOri t rd rs1 imm s
  | .xori t rd rs1 imm => Sys2Proof.Machine.execXori t rd rs1 imm s
  | .slli t rd rs1 sh => Sys2Proof.Machine.execSlli t rd rs1 sh s
  | .srli t rd rs1 sh => Sys2Proof.Machine.execSrli t rd rs1 sh s
  | .srai t rd rs1 sh => Sys2Proof.Machine.execSrai t rd rs1 sh s
  | .slti t rd rs1 imm => Sys2Proof.Machine.execSlti t rd rs1 imm s
  | .sltiu t rd rs1 imm => Sys2Proof.Machine.execSltiu t rd rs1 imm s
  | .li t rd imm => Sys2Proof.Machine.execLi t rd imm s
  | .lih t rd rs1 imm => Sys2Proof.Machine.execLih t rd rs1 imm s
  | .pcadd t rd imm => Sys2Proof.Machine.execPcadd t rd imm s
  | .ext t rd rs1 sel => Sys2Proof.Machine.execExt t rd rs1 sel s
  | .lb t rd a => Sys2Proof.Machine.execLb t rd a s
  | .lbu t rd a => Sys2Proof.Machine.execLbu t rd a s
  | .lh t rd a => Sys2Proof.Machine.execLh t rd a s
  | .lhu t rd a => Sys2Proof.Machine.execLhu t rd a s
  | .lw t rd a => Sys2Proof.Machine.execLw t rd a s
  | .lwu t rd a => Sys2Proof.Machine.execLwu t rd a s
  | .ld t rd a => Sys2Proof.Machine.execLd t rd a s
  | .sb t rsd a => Sys2Proof.Machine.execSb t rsd a s
  | .sh t rsd a => Sys2Proof.Machine.execSh t rsd a s
  | .sw t rsd a => Sys2Proof.Machine.execSw t rsd a s
  | .sd t rsd a => Sys2Proof.Machine.execSd t rsd a s
  | .beq t rs1 rs2 off => Sys2Proof.Machine.execBeq t rs1 rs2 off s
  | .bne t rs1 rs2 off => Sys2Proof.Machine.execBne t rs1 rs2 off s
  | .blt t rs1 rs2 off => Sys2Proof.Machine.execBlt t rs1 rs2 off s
  | .bge t rs1 rs2 off => Sys2Proof.Machine.execBge t rs1 rs2 off s
  | .bltu t rs1 rs2 off => Sys2Proof.Machine.execBltu t rs1 rs2 off s
  | .bgeu t rs1 rs2 off => Sys2Proof.Machine.execBgeu t rs1 rs2 off s
  | .jal t rd off => Sys2Proof.Machine.execJal t rd off s
  | .jalr t rd rs1 imm => Sys2Proof.Machine.execJalr t rd rs1 imm s
  | .trd t rd taddr => Sys2Proof.Machine.execTrd t rd taddr s
  | .twr t rs1 taddr => Sys2Proof.Machine.execTwr t rs1 taddr s
  | .twri t taddr imm => Sys2Proof.Machine.execTwri t taddr imm s
  | .illegalInstruction t word => Sys2Proof.Machine.execIllegalInstruction t word s
  | .tCrnCfgWrite t n v => Sys2Proof.Machine.execTCrnCfgWrite t n v s
  | .tStpTn6Access t acc => Sys2Proof.Machine.execTStpTn6Access t acc s
  | .mstat t w f => Sys2Proof.Machine.execMstat t w f s
  | .mmul t w f => Sys2Proof.Machine.execMmul t w f s
  | .mread t w f => Sys2Proof.Machine.execMread t w f s
  | .vadd t w f => Sys2Proof.Machine.execVadd t w f s
  | .vsub t w f => Sys2Proof.Machine.execVsub t w f s
  | .vmul t w f => Sys2Proof.Machine.execVmul t w f s
  | .vdiv t w f => Sys2Proof.Machine.execVdiv t w f s
  | .vsqrt t w f => Sys2Proof.Machine.execVsqrt t w f s
  | .vfma t w f => Sys2Proof.Machine.execVfma t w f s
  | .vfms t w f => Sys2Proof.Machine.execVfms t w f s
  | .vfnma t w f => Sys2Proof.Machine.execVfnma t w f s
  | .vrem t w f => Sys2Proof.Machine.execVrem t w f s
  | .vmin t w f => Sys2Proof.Machine.execVmin t w f s
  | .vmax t w f => Sys2Proof.Machine.execVmax t w f s
  | .vminnum t w f => Sys2Proof.Machine.execVminnum t w f s
  | .vmaxnum t w f => Sys2Proof.Machine.execVmaxnum t w f s
  | .vrint t w f => Sys2Proof.Machine.execVrint t w f s
  | .vscaleb t w f => Sys2Proof.Machine.execVscaleb t w f s
  | .vlogb t w f => Sys2Proof.Machine.execVlogb t w f s
  | .vnext t w f => Sys2Proof.Machine.execVnext t w f s
  | .vcmp t w f => Sys2Proof.Machine.execVcmp t w f s
  | .vclass t w f => Sys2Proof.Machine.execVclass t w f s
  | .vsgn t w f => Sys2Proof.Machine.execVsgn t w f s
  | .vcvtr t w f stype half => Sys2Proof.Machine.execVcvtr t w f stype half s
  | .viadd t w f => Sys2Proof.Machine.execViadd t w f s
  | .visub t w f => Sys2Proof.Machine.execVisub t w f s
  | .vimul t w f => Sys2Proof.Machine.execVimul t w f s
  | .vand t w f => Sys2Proof.Machine.execVand t w f s
  | .vor t w f => Sys2Proof.Machine.execVor t w f s
  | .vxor t w f => Sys2Proof.Machine.execVxor t w f s
  | .vshl t w f => Sys2Proof.Machine.execVshl t w f s
  | .vshr t w f => Sys2Proof.Machine.execVshr t w f s
  | .vimin t w f => Sys2Proof.Machine.execVimin t w f s
  | .vimax t w f => Sys2Proof.Machine.execVimax t w f s
  | .vicmp t w f => Sys2Proof.Machine.execVicmp t w f s
  | .vsel t w f => Sys2Proof.Machine.execVsel t w f s
  | .vsplat t w f => Sys2Proof.Machine.execVsplat t w f s
  | .vperm t w f => Sys2Proof.Machine.execVperm t w f s
  | .vred t w f => Sys2Proof.Machine.execVred t w f s
  | .vsf t w f => Sys2Proof.Machine.execVsf t w f s
  | .vgumbel t w vd rt re => Sys2Proof.Machine.execVgumbel t w vd rt re s
  | .vld t w f => Sys2Proof.Machine.execVld t w f s
  | .vst t w vs ra crm cr => Sys2Proof.Machine.execVst t w vs ra crm cr s
  | .vldl t w v ra lane crm cr => Sys2Proof.Machine.execVldl t w v ra lane crm cr s
  | .vstl t w v ra lane crm cr => Sys2Proof.Machine.execVstl t w v ra lane crm cr s
  | .vstg t w vd line => Sys2Proof.Machine.execVstg t w vd line s
  | .vcvt t w f => Sys2Proof.Machine.execVcvt t w f s
  | .vsplit32 t w rs rd rq rn p3 => Sys2Proof.Machine.execVsplit32 t w rs rd rq rn p3 s
  | .vslice64 t w rs rd rq rsh rsc sc axis => Sys2Proof.Machine.execVslice64 t w rs rd rq rsh rsc sc axis s
  | .vsample t w f => Sys2Proof.Machine.execVsample t w f s
  | .rraw128 t w f => Sys2Proof.Machine.execRraw128 t w f s
  | .rraw32 t w f => Sys2Proof.Machine.execRraw32 t w f s
  | .runi t w f => Sys2Proof.Machine.execRuni t w f s
  | .rbern t w f => Sys2Proof.Machine.execRbern t w f s
  | .xrun t w ra rl => Sys2Proof.Machine.execXrun t w ra rl s
  | .psend t w f => Sys2Proof.Machine.execPsend t w f s
  | .sdesc t w ra => Sys2Proof.Machine.execSdesc t w ra s
  | .sget t w f => Sys2Proof.Machine.execSget t w f s
  | .sput t w f => Sys2Proof.Machine.execSput t w f s
  | .samo t w f => Sys2Proof.Machine.execSamo t w f s
  | .sflag t w rv rx acq rel => Sys2Proof.Machine.execSflag t w rv rx acq rel s
  | .engineInstructionStart t eng => Sys2Proof.Machine.execEngineInstructionStart t eng s
  | .engineInstructionFinish t eng => Sys2Proof.Machine.execEngineInstructionFinish t eng s
  | .instructionFill t line => Sys2Proof.Machine.execInstructionFill t line s
  | .auditCheck t => Sys2Proof.Machine.execAuditCheck t s
  | .scrubStep t => Sys2Proof.Machine.execScrubStep t s
  | .spCeClear region cluster pos => Sys2Proof.Machine.execSpCeClear region cluster pos s
  | .syncArrival t => Sys2Proof.Machine.execSyncArrival t s
  | .exchangeSend t => Sys2Proof.Machine.execExchangeSend t s
  | .exchangeReceive t => Sys2Proof.Machine.execExchangeReceive t s
  | .endDecision zone => Sys2Proof.Machine.execEndDecision zone s
  | .evictSaveDone t ctx => Sys2Proof.Machine.execEvictSaveDone t ctx s
  | .computeDroopTrip region => Sys2Proof.Machine.execComputeDroopTrip region s
  | .computeDroopEnd region => Sys2Proof.Machine.execComputeDroopEnd region s
  | .packageDroopTrip => Sys2Proof.Machine.execPackageDroopTrip s
  | .packageDroopEnd => Sys2Proof.Machine.execPackageDroopEnd s
  | .refclkLoss => Sys2Proof.Machine.execRefclkLoss s
  | .stewardHeartbeat region => Sys2Proof.Machine.execStewardHeartbeat region s
  | .heartbeatTimeout region => Sys2Proof.Machine.execHeartbeatTimeout region s
  | .crossingDrift src region wander => Sys2Proof.Machine.execCrossingDrift src region wander s
  | .crossingRecenter src region depth confirmed => Sys2Proof.Machine.execCrossingRecenter src region depth confirmed s
  | .crossingSlip src region wander => Sys2Proof.Machine.execCrossingSlip src region wander s
  | .xcalRecenterRequest region v => Sys2Proof.Machine.execXcalRecenterRequest region v s
  | .xmonClear region v => Sys2Proof.Machine.execXmonClear region v s
  | .postSendAccept t ctx => Sys2Proof.Machine.execPostSendAccept t ctx s
  | .postMessageArrive m slots => Sys2Proof.Machine.execPostMessageArrive m slots s
  | .nackRecordArrive n => Sys2Proof.Machine.execNackRecordArrive n s
  | .postackReceive a => Sys2Proof.Machine.execPostackReceive a s
  | .postTimeout src ctx seq => Sys2Proof.Machine.execPostTimeout src ctx seq s
  | .arbiterGrant cls inst raised dropped => Sys2Proof.Machine.execArbiterGrant cls inst raised dropped s
  | .ageTick => Sys2Proof.Machine.execAgeTick s
  | .ageOldMark cls inst input => Sys2Proof.Machine.execAgeOldMark cls inst input s
  | .arbCommit v => Sys2Proof.Machine.execArbCommit v s
  | .arbMgmtHold v => Sys2Proof.Machine.execArbMgmtHold v s
  | .streamAccept t ctx => Sys2Proof.Machine.execStreamAccept t ctx s
  | .translationWalk t ctx slot => Sys2Proof.Machine.execTranslationWalk t ctx slot s
  | .hbmRead addr => Sys2Proof.Machine.execHbmRead addr s
  | .hbmWrite addr off data poison => Sys2Proof.Machine.execHbmWrite addr off data poison s
  | .hbmAtomic addr aop x cmp => Sys2Proof.Machine.execHbmAtomic addr aop x cmp s
  | .hbmRowClose stack row => Sys2Proof.Machine.execHbmRowClose stack row s
  | .hbmRefresh stack rows => Sys2Proof.Machine.execHbmRefresh stack rows s
  | .hostWindowRequest q => Sys2Proof.Machine.execHostWindowRequest q s
  | .streamComplete t ctx slot => Sys2Proof.Machine.execStreamComplete t ctx slot s
  | .fenceOrderingPoint t ctx slot => Sys2Proof.Machine.execFenceOrderingPoint t ctx slot s
  | .xlatInvalidate region v => Sys2Proof.Machine.execXlatInvalidate region v s
  | .xlatInvalidateDone region => Sys2Proof.Machine.execXlatInvalidateDone region s
  | .interleaveChange v => Sys2Proof.Machine.execInterleaveChange v s
  | .interleaveFillDone => Sys2Proof.Machine.execInterleaveFillDone s
  | .memCeClear stack v => Sys2Proof.Machine.execMemCeClear stack v s
  | .linkSignalDetect e => Sys2Proof.Machine.execLinkSignalDetect e s
  | .autonegDone e peer200 peerVers => Sys2Proof.Machine.execAutonegDone e peer200 peerVers s
  | .linkTrainDone e lanes => Sys2Proof.Machine.execLinkTrainDone e lanes s
  | .linkAlignDone e => Sys2Proof.Machine.execLinkAlignDone e s
  | .helloReceive e hello => Sys2Proof.Machine.execHelloReceive e hello s
  | .linkStateTimeout e => Sys2Proof.Machine.execLinkStateTimeout e s
  | .retrainPauseEnd e => Sys2Proof.Machine.execRetrainPauseEnd e s
  | .flitReceive e lanes => Sys2Proof.Machine.execFlitReceive e lanes s
  | .ackTimer e => Sys2Proof.Machine.execAckTimer e s
  | .nakRepeat e => Sys2Proof.Machine.execNakRepeat e s
  | .replayTimeout e => Sys2Proof.Machine.execReplayTimeout e s
  | .creditStall e vc cls => Sys2Proof.Machine.execCreditStall e vc cls s
  | .transportPacketIngress e => Sys2Proof.Machine.execTransportPacketIngress e s
  | .packetEgress k => Sys2Proof.Machine.execPacketEgress k s
  | .egressHoldExpiry k => Sys2Proof.Machine.execEgressHoldExpiry k s
  | .failoverHoldEnd dest => Sys2Proof.Machine.execFailoverHoldEnd dest s
  | .memRequestTimeout txid => Sys2Proof.Machine.execMemRequestTimeout txid s
  | .linkDown e => Sys2Proof.Machine.execLinkDown e s
  | .routeDiscovery links duplicates tn6 => Sys2Proof.Machine.execRouteDiscovery links duplicates tn6 s
  | .controlRequestTimeout peer => Sys2Proof.Machine.execControlRequestTimeout peer s
  | .fabPortEnable p v => Sys2Proof.Machine.execFabPortEnable p v s
  | .fabPortRetrain p v => Sys2Proof.Machine.execFabPortRetrain p v s
  | .fabCntClear p v => Sys2Proof.Machine.execFabCntClear p v s
  | .marginStart p v => Sys2Proof.Machine.execMarginStart p v s
  | .marginStop p v => Sys2Proof.Machine.execMarginStop p v s
  | .marginPointDone p errors => Sys2Proof.Machine.execMarginPointDone p errors s
  | .deviceIdSet v => Sys2Proof.Machine.execDeviceIdSet v s
  | .routeTableRead v => Sys2Proof.Machine.execRouteTableRead v s
  | .routeTableWrite v => Sys2Proof.Machine.execRouteTableWrite v s
  | .fabLateClear v => Sys2Proof.Machine.execFabLateClear v s
  | .xsyncArriveReceive child a => Sys2Proof.Machine.execXsyncArriveReceive child a s
  | .xsyncReleaseReceive a => Sys2Proof.Machine.execXsyncReleaseReceive a s
  | .xsyncReleaseWaitEnd zone => Sys2Proof.Machine.execXsyncReleaseWaitEnd zone s
  | .xsyncAbortReceive sender a => Sys2Proof.Machine.execXsyncAbortReceive sender a s
  | .xsyncArriveRepeat zone => Sys2Proof.Machine.execXsyncArriveRepeat zone s
  | .xsyncPeerLost zone peer => Sys2Proof.Machine.execXsyncPeerLost zone peer s
  | .xsyncProbeReceive sender a => Sys2Proof.Machine.execXsyncProbeReceive sender a s
  | .xsyncEchoReceive sender a rtt => Sys2Proof.Machine.execXsyncEchoReceive sender a rtt s
  | .xsyncEchoTimeout zone => Sys2Proof.Machine.execXsyncEchoTimeout zone s
  | .xsyncWalkMessage zone m => Sys2Proof.Machine.execXsyncWalkMessage zone m s
  | .xsyncSweepStart zone v => Sys2Proof.Machine.execXsyncSweepStart zone v s
  | .xsyncBreakReport zone index dev peer edges maxPath => Sys2Proof.Machine.execXsyncBreakReport zone index dev peer edges maxPath s
  | .fabXsyncLateClear zone v => Sys2Proof.Machine.execFabXsyncLateClear zone v s
  | .domainIdleExpiry dom => Sys2Proof.Machine.execDomainIdleExpiry dom s
  | .domainSwitchOnDone dom => Sys2Proof.Machine.execDomainSwitchOnDone dom s
  | .domainRequestWrite off v => Sys2Proof.Machine.execDomainRequestWrite off v s
  | .powerSample watts => Sys2Proof.Machine.execPowerSample watts s
  | .monitorCalibration watts => Sys2Proof.Machine.execMonitorCalibration watts s
  | .phaseEntryRecompute zone phase => Sys2Proof.Machine.execPhaseEntryRecompute zone phase s
  | .shareRecompute => Sys2Proof.Machine.execShareRecompute s
  | .clockCodeStep region => Sys2Proof.Machine.execClockCodeStep region s
  | .junctionSensorRead die sensor temp => Sys2Proof.Machine.execJunctionSensorRead die sensor temp s
  | .thermalCapStep die => Sys2Proof.Machine.execThermalCapStep die s
  | .hbmTemperatureReport stack temp => Sys2Proof.Machine.execHbmTemperatureReport stack temp s
  | .thermalTrip die sensor temp => Sys2Proof.Machine.execThermalTrip die sensor temp s
  | .pwrCapWrite v => Sys2Proof.Machine.execPwrCapWrite v s
  | .pwrExcessClear v => Sys2Proof.Machine.execPwrExcessClear v s
  | .sqTailDoorbell q v => Sys2Proof.Machine.execSqTailDoorbell q v s
  | .cqHeadDoorbell q v => Sys2Proof.Machine.execCqHeadDoorbell q v s
  | .commandFetch q => Sys2Proof.Machine.execCommandFetch q s
  | .coalesceTimeout q => Sys2Proof.Machine.execCoalesceTimeout q s
  | .commandTimeout q seq => Sys2Proof.Machine.execCommandTimeout q seq s
  | .adminQueueEnable v => Sys2Proof.Machine.execAdminQueueEnable v s
  | .bar2Read off len => Sys2Proof.Machine.execBar2Read off len s
  | .bar2Write off data poison => Sys2Proof.Machine.execBar2Write off data poison s
  | .bar0BadAccess => Sys2Proof.Machine.execBar0BadAccess s
  | .bar0PairLowRead off => Sys2Proof.Machine.execBar0PairLowRead off s
  | .bar0PairHighWrite off v => Sys2Proof.Machine.execBar0PairHighWrite off v s
  | .bar0PairLowWrite off v => Sys2Proof.Machine.execBar0PairLowWrite off v s
  | .registerWrite off v => Sys2Proof.Machine.execRegisterWrite off v s
  | .hostPowerState p => Sys2Proof.Machine.execHostPowerState p s
  | .identify h => Sys2Proof.Machine.execIdentify h s
  | .negotiate h mask => Sys2Proof.Machine.execNegotiate h mask s
  | .setConfig h dev size zoneMap => Sys2Proof.Machine.execSetConfig h dev size zoneMap s
  | .queueCreate h p => Sys2Proof.Machine.execQueueCreate h p s
  | .queueDelete h q => Sys2Proof.Machine.execQueueDelete h q s
  | .tablePool h base len => Sys2Proof.Machine.execTablePool h base len s
  | .map h p => Sys2Proof.Machine.execMap h p s
  | .unmap h asid va len => Sys2Proof.Machine.execUnmap h asid va len s
  | .translate h asid va => Sys2Proof.Machine.execTranslate h asid va s
  | .copy h srcHost dstHost src dst len => Sys2Proof.Machine.execCopy h srcHost dstHost src dst len s
  | .fill h dst pattern len => Sys2Proof.Machine.execFill h dst pattern len s
  | .resume h tile ctx mask => Sys2Proof.Machine.execResume h tile ctx mask s
  | .proof h ctxSel asid img => Sys2Proof.Machine.execProof h ctxSel asid img s
  | .load h ctxSel asid img => Sys2Proof.Machine.execLoad h ctxSel asid img s
  | .start h p => Sys2Proof.Machine.execStart h p s
  | .stop h zone force any => Sys2Proof.Machine.execStop h zone force any s
  | .yield h zone any => Sys2Proof.Machine.execYield h zone any s
  | .evict h zone any area len => Sys2Proof.Machine.execEvict h zone any area len s
  | .restore h ctxSel area => Sys2Proof.Machine.execRestore h ctxSel area s
  | .unload h zone => Sys2Proof.Machine.execUnload h zone s
  | .cancel h zone => Sys2Proof.Machine.execCancel h zone s
  | .priority h cls n map => Sys2Proof.Machine.execPriority h cls n map s
  | .pair h hostZone guest budget => Sys2Proof.Machine.execPair h hostZone guest budget s
  | .unpair h hostZone => Sys2Proof.Machine.execUnpair h hostZone s
  | .groupCreate h zone gid root => Sys2Proof.Machine.execGroupCreate h zone gid root s
  | .groupDelete h zone => Sys2Proof.Machine.execGroupDelete h zone s
  | .groupAbort h zone => Sys2Proof.Machine.execGroupAbort h zone s
  | .groupSweep h zone => Sys2Proof.Machine.execGroupSweep h zone s
  | .cap h watts => Sys2Proof.Machine.execCap h watts s
  | .hint h entries => Sys2Proof.Machine.execHint h entries s
  | .domain h dom off => Sys2Proof.Machine.execDomain h dom off s
  | .sample h => Sys2Proof.Machine.execSample h s
  | .dump h sel zone buf len => Sys2Proof.Machine.execDump h sel zone buf len s
  | .eventWait h => Sys2Proof.Machine.execEventWait h s
  | .logRead h buf len idx => Sys2Proof.Machine.execLogRead h buf len idx s
  | .logClear h idx => Sys2Proof.Machine.execLogClear h idx s
  | .repair h tile => Sys2Proof.Machine.execRepair h tile s
  | .halt h scope tile ctx => Sys2Proof.Machine.execHalt h scope tile ctx s
  | .run h scope tile ctx => Sys2Proof.Machine.execRun h scope tile ctx s
  | .step h tile ctx n => Sys2Proof.Machine.execStep h tile ctx n s
  | .memRead h p => Sys2Proof.Machine.execMemRead h p s
  | .memWrite h p data => Sys2Proof.Machine.execMemWrite h p data s
  | .ringRead h tile ctx ring buf => Sys2Proof.Machine.execRingRead h tile ctx ring buf s
  | .stateRead h item tile inst buf => Sys2Proof.Machine.execStateRead h item tile inst buf s
  | .breakSet h tile slot flags addr => Sys2Proof.Machine.execBreak h tile slot flags addr s
  | .regRead h off => Sys2Proof.Machine.execRegRead h off s
  | .regWrite h off v => Sys2Proof.Machine.execRegWrite h off v s
  | .powerOnReset => Sys2Proof.Machine.execPowerOnReset s
  | .pgAonFall => Sys2Proof.Machine.execPgAonFall s
  | .perstAssert => Sys2Proof.Machine.execPerstAssert s
  | .perstDeassert => Sys2Proof.Machine.execPerstDeassert s
  | .pgFall input => Sys2Proof.Machine.execPgFall input s
  | .pgTimeout => Sys2Proof.Machine.execPgTimeout s
  | .bootSequence env => Sys2Proof.Machine.execBootSequence env s
  | .bootFlashReadTimeout slot => Sys2Proof.Machine.execBootFlashReadTimeout slot s
  | .warmReset v => Sys2Proof.Machine.execWarmReset v s
  | .hotReset => Sys2Proof.Machine.execHotReset s
  | .functionLevelReset => Sys2Proof.Machine.execFunctionLevelReset s
  | .resetKeyArm v => Sys2Proof.Machine.execResetKeyArm v s
  | .regionReset v => Sys2Proof.Machine.execRegionReset v s
  | .tileReset v => Sys2Proof.Machine.execTileReset v s
  | .contextReset v => Sys2Proof.Machine.execContextReset v s
  | .recoveryBootStart v => Sys2Proof.Machine.execRecoveryBootStart v s
  | .recoveryBootData v => Sys2Proof.Machine.execRecoveryBootData v s
  | .recoveryBootDone v => Sys2Proof.Machine.execRecoveryBootDone v s
  | .recoveryTransferStall => Sys2Proof.Machine.execRecoveryTransferStall s
  | .mfpSelect n v busy => Sys2Proof.Machine.execMfpSelect n v busy s
  | .mfpPendingSwitch n => Sys2Proof.Machine.execMfpPendingSwitch n s
  | .mfpParkEnd n => Sys2Proof.Machine.execMfpParkEnd n s
  | .inputFilterChange n level => Sys2Proof.Machine.execInputFilterChange n level s
  | .extFaultClear v => Sys2Proof.Machine.execExtFaultClear v s
  | .regulatorReport rep => Sys2Proof.Machine.execRegulatorReport rep s
  | .pmbusTimeout unit => Sys2Proof.Machine.execPmbusTimeout unit s
  | .smbusTimeout unit => Sys2Proof.Machine.execSmbusTimeout unit s
  | .spiTimeout unit => Sys2Proof.Machine.execSpiTimeout unit s
  | .lockstepMismatch => Sys2Proof.Machine.execLockstepMismatch s
  | .engineParityError t ctx eng store => Sys2Proof.Machine.execEngineParityError t ctx eng store s
  | .recoveryActionDone hd ok spareOk => Sys2Proof.Machine.execRecoveryActionDone hd ok spareOk s
  | .recoveryWindowTimeout hd silent => Sys2Proof.Machine.execRecoveryWindowTimeout hd silent s
  | .alarmDelivery => Sys2Proof.Machine.execAlarmDelivery s
  | .rasHosterrClear v => Sys2Proof.Machine.execRasHosterrClear v s
  | .tapReset => Sys2Proof.Machine.execTapReset s
  | .tapExtest => Sys2Proof.Machine.execTapExtest s
  | .dbgaccPoll => Sys2Proof.Machine.execDbgaccPoll s
  | .dbgaccRegRead a => Sys2Proof.Machine.execDbgaccRegRead a s
  | .dbgaccRegWrite a => Sys2Proof.Machine.execDbgaccRegWrite a s
  | .dbgaccRead8 a => Sys2Proof.Machine.execDbgaccRead8 a s
  | .dbgaccWrite8 a => Sys2Proof.Machine.execDbgaccWrite8 a s
  | .dbgaccHalt a => Sys2Proof.Machine.execDbgaccHalt a s
  | .dbgaccRun a => Sys2Proof.Machine.execDbgaccRun a s
  | .dbgaccStep a => Sys2Proof.Machine.execDbgaccStep a s
  | .dbgaccHold => Sys2Proof.Machine.execDbgaccHold s
  | .dbgaccRelease => Sys2Proof.Machine.execDbgaccRelease s
  | .dbgaccReserved => Sys2Proof.Machine.execDbgaccReserved s
  | .traceWrite region cluster => Sys2Proof.Machine.execTraceWrite region cluster s
  | .traceReadCapture region => Sys2Proof.Machine.execTraceReadCapture region s
  | .traceLostClear region v => Sys2Proof.Machine.execTraceLostClear region v s
  | .traceQdropClear region cluster v => Sys2Proof.Machine.execTraceQdropClear region cluster v s
  | .pgInputRise input => Sys2Proof.Machine.execPgInputRise input s
  | .quiesceTimeout t ctx => Sys2Proof.Machine.execQuiesceTimeout t ctx s
  | .pcieCompletionTimeout req => Sys2Proof.Machine.execPcieCompletionTimeout req s
  | .hostReadCompletion tag data poison => Sys2Proof.Machine.execHostReadCompletion tag data poison s
  | .sweepRepeat zone rebuilt => Sys2Proof.Machine.execSweepRepeat zone rebuilt s
  | .recordAreaFlashTimeout => Sys2Proof.Machine.execRecordAreaFlashTimeout s

end Sys2Proof.Machine
end

