-- ==== Sys2Proof/Safety.lean ====
section
/-! DEFINITION. What the claims call a good state and a safe step, and the words in which they say what a command leaves
unchanged. -/

namespace Sys2Proof.Machine

/-- The memories are in canonical form: the package memory, the scratchpad of every tile and that of every seventeenth position list
their bytes by strictly rising address, and list no byte that reads as zero anyway. -/
def State.memoriesWf (s : State) : Bool :=
  memWf s.memory.bytes && (s.tiles.all fun e => memWf e.2.sp) && s.clusters.all fun e => memWf e.2.spareSp

/-- A step that neither faults nor is refused. -/
def Runs (s : State) : Prop := ∃ t, step s = .next t

/-- The context c of tile t is active and nothing keeps its next instruction from issuing: the tile executes, the context
is not halted and not gated, its program counter lies in its partition, the line there is in the instruction buffer without an
uncorrectable word, and no breakpoint matches (R51, R60, R72, R100, R476, R477). -/
structure Ready (s : State) (t : TileId) (c : Bool) : Prop where
  runs : s.tileRuns t = true
  active : (s.tile t).active = some c
  notHalted : (s.ctx t c).halted = false
  gateOpen : (s.ctx t c).gate = Gate.none
  inside : (s.ctx t c).pc.toNat < (s.tile t).partSize c
  lineIn : ((s.tile t).ibLine c (s.ctx t c).pc.toNat).isSome = true
  lineOk : (s.tile t).lineUe c (s.ctx t c).pc.toNat = none
  noBreak : (s.ctx t c).skipMatch = true ∨ (s.tile t).ibpMatch c (s.ctx t c).pc.toNat = none

/-- Of the clusters, at most trace queues differ (R482). -/
def TraceOnly (s u : State) : Prop :=
  ∀ i, { u.cluster i with trq := (s.cluster i).trq, trqLost := (s.cluster i).trqLost, qdrop := (s.cluster i).qdrop } = s.cluster i

/-- Of the clusters, at most trace queues and the scratchpad error counters differ (R102, R482). -/
def CountersOnly (s u : State) : Prop :=
  ∀ i, { u.cluster i with trq := (s.cluster i).trq, trqLost := (s.cluster i).trqLost, qdrop := (s.cluster i).qdrop,
                          spCe := (s.cluster i).spCe, spUe := (s.cluster i).spUe } = s.cluster i

/-- Tile t has become x and every other tile is as it was. -/
def TileBecomes (s u : State) (t : TileId) (x : Tile) : Prop := u.tile t = x ∧ ∀ o, o ≠ t → u.tile o = s.tile o

/-- What differs is one tile, which has become x, and at most trace queues. -/
def OnlyTile (s u : State) (t : TileId) (x : Tile) : Prop :=
  TileBecomes s u t x ∧ TraceOnly s u ∧ u = { s with tiles := u.tiles, clusters := u.clusters }

/-- The tile as an instruction of its context c finds it that has been fetched: its line is the latest used of its set, and the next
line's fill has started if F2 has come to a new line and the next is absent (R50, R51). Lines and contents are as before. -/
def State.afterFetch (s : State) (t : TileId) (c : Bool) : Tile := (s.tile t).touch c (s.ctx t c).pc.toNat

/-- An instruction of context c has issued, and what differs is that context, which has become y, and at most trace queues: but for
the order of use and the next line's fill that its fetch makes, the tile's other context, its scratchpad, vector registers, engines
and buffers, every other tile, package memory and every register of the device are as before. -/
def OnlyCtx (s u : State) (t : TileId) (c : Bool) (y : Ctx) : Prop := OnlyTile s u t ((s.afterFetch t c).setCtx c y)

/-- The context as an instruction that has issued and goes on to the next word leaves it, before its own effect. -/
def Ctx.next (y : Ctx) : Ctx := { y with pc := y.pc + 8, skipMatch := false }

end Sys2Proof.Machine
end

