-- ==== Sys2Proof/Certificates/Slice0/Obligations.lean ====
section
/-! DEFINITION. The statements for the provers: what the manual's rules say of the model, one definition each. -/

open Sys2Proof Sys2Proof.Machine

/-! ### The machine -/

/-- The command at the front of the queue is the one a step performs, on the state with the rest of the queue. -/
def Obligations.StepPerformsTheFrontCommand : Prop :=
  ∀ (s : State) (c : Instr) (rest : List Instr), s.pending = c :: rest → step s = exec c { s with pending := rest }

/-- With no command waiting, a step lets one reference cycle pass: T_TIME counts it, and of the contexts only T_TC_COUNT may
change. That an empty queue stands for the passing of time is the model's choice (assumption 2). -/
def Obligations.IdleStepPassesOneCycle : Prop :=
  ∀ s : State, s.pending = [] → ∃ u, step s = .next u ∧ u.time = s.time + 1 ∧ u.pending = [] ∧
    (∀ t c, { u.ctx t c with tcCount := (s.ctx t c).tcCount } = s.ctx t c) ∧
    (∀ t, (u.tile t).sp = (s.tile t).sp ∧ (u.tile t).vregs = (s.tile t).vregs) ∧
    u.log = s.log ∧ u.memory = s.memory ∧ u.host = s.host ∧ u.fabric = s.fabric ∧ u.chip = s.chip

/-- Whatever the command and the state, the block answers a next state: it has no fault and refuses nothing; and a command leaves the
queue of waiting commands as it is. -/
def Obligations.CommandsAnswerAndLeaveTheQueue : Prop :=
  ∀ (c : Instr) (s : State), ∃ u, exec c s = .next u ∧ u.pending = s.pending

/-- Every step keeps every memory in its canonical form. -/
def Obligations.StepsKeepMemoriesCanonical : Prop :=
  ∀ s u : State, s.memoriesWf = true → step s = .next u → u.memoriesWf = true

/-- The state right after power-on reset holds what the manual gives: every tile has two EMPTY contexts and its boundary at
16; scratchpads and package memory read zero; the log is empty; the arbiters have N = 8 and the identity map; RESET_CAUSE
names power-on; ports are DOWN with EN = 1; T_ISA_ID reads major version 8. Its memories are in canonical form. -/
def Obligations.ResetHoldsTheGivenValues : Prop :=
  State.reset.memoriesWf = true ∧
  (∀ t c, (State.reset.tRead t c 0x000).extractLsb' 16 16 = 0x0800 ∧ (State.reset.ctx t c).phase = .empty ∧
    (∀ r, (State.reset.ctx t c).reg r = 0) ∧ State.reset.tRead t c 0x020 = 0 ∧ State.reset.tRead t c 0x003 = 0) ∧
  (∀ t, (State.reset.tile t).bound = 16 ∧ ∀ a, SMap.get 0 (State.reset.tile t).sp a = 0) ∧
  (∀ a, SMap.get 0 State.reset.memory.bytes a = 0) ∧
  State.reset.log.errs = [] ∧ State.reset.log.alarms = [] ∧ State.reset.log.fenced = false ∧ State.reset.time = 0 ∧
  State.reset.chip.cause = 1 ∧ State.reset.pending = [] ∧ (∀ e, (State.reset.half e).state = 0) ∧ State.reset.arb.shift = 4

/-! ### The instruction word (R171, R172) -/

/-- The decoder drops no bit: two words that decode to the same instruction are the same word, so that every bit of a word is an
operand's or is checked. -/
def Obligations.DecodingDropsNoBit : Prop :=
  ∀ (t : TileId) (w v : Word) (i : Instr), oz8Decode t w = some i → oz8Decode t v = some i → w = v

/-- Words written out from the manual's encodings decode to their instructions, and a word of zeros to none. -/
def Obligations.ManualWordsDecode : Prop :=
  ∀ t : TileId,
    oz8Decode t 0x0C0A3FFFFFFFFFF0 = some (.addi t 5 3 (-16)) ∧
    oz8Decode t (0x010 * 2 ^ 54 + 7 * 2 ^ 49 + 8 * 2 ^ 44 + 9 * 2 ^ 39) = some (.add t 7 8 9) ∧
    oz8Decode t (0x046 * 2 ^ 54 + 4 * 2 ^ 49 + 2 * 2 ^ 44 + 0x3FFFF8) = some (.ld t 4 ⟨2, false, 0, -8⟩) ∧
    oz8Decode t (0x04B * 2 ^ 54 + 4 * 2 ^ 49 + 2 ^ 43 + 3 * 2 ^ 39) = some (.sd t 4 ⟨0, true, 3, 0⟩) ∧
    oz8Decode t (0x051 * 2 ^ 54 + 3 * 2 ^ 49 + 0xFFFFFC) = some (.bne t 3 0 (-4)) ∧
    oz8Decode t (0x005 * 2 ^ 54 + 17 * 2 ^ 46 + 2 ^ 44) = some (.sync t ⟨17, false, true, false⟩) ∧
    oz8Decode t (0x006 * 2 ^ 54 + 2 ^ 53 + 6 * 2 ^ 49) = some (.sig t ⟨some 6, none⟩) ∧
    oz8Decode t (0x060 * 2 ^ 54 + 1 * 2 ^ 49 + 0x003 * 2 ^ 32) = some (.trd t 1 0x003) ∧
    oz8Decode t (0x2C0 * 2 ^ 54 + 2 ^ 48 + 9 * 2 ^ 44 + 10 * 2 ^ 39 + 11 * 2 ^ 34) = some (.xrun t ⟨none, some 9⟩ 10 11) ∧
    oz8Decode t 0 = none ∧ oz8Illegal t 0 = true ∧ oz8Illegal t (0x380 * 2 ^ 54) = true ∧
    oz8Illegal t (0x001 * 2 ^ 54 + 1) = true ∧ oz8Illegal t (0x03C * 2 ^ 54 + 3) = true

/-! ### The scalar core: registers and arithmetic (R173, R177–R179) -/

/-- What the register instructions write, over the integers (R177, R178). -/
def aluTable : List ((TileId → RegNo → RegNo → RegNo → Instr) × (Word → Word → Word)) :=
  [(.add, fun a b => .ofNat 64 (a.toNat + b.toNat)),
   (.sub, fun a b => .ofInt 64 ((a.toNat : Int) - (b.toNat : Int))),
   (.and, fun a b => .ofNat 64 (a.toNat &&& b.toNat)),
   (.or, fun a b => .ofNat 64 (a.toNat ||| b.toNat)),
   (.xor, fun a b => .ofNat 64 (a.toNat ^^^ b.toNat)),
   (.sll, fun a b => .ofNat 64 (a.toNat * 2 ^ (b.toNat % 64))),
   (.srl, fun a b => .ofNat 64 (a.toNat / 2 ^ (b.toNat % 64))),
   (.sra, fun a b => .ofInt 64 (a.toInt / ((2 ^ (b.toNat % 64) : Nat) : Int))),
   (.slt, fun a b => if a.toInt < b.toInt then 1 else 0),
   (.sltu, fun a b => if a.toNat < b.toNat then 1 else 0),
   (.min, fun a b => .ofInt 64 (min a.toInt b.toInt)),
   (.max, fun a b => .ofInt 64 (max a.toInt b.toInt)),
   (.minu, fun a b => .ofNat 64 (min a.toNat b.toNat)),
   (.maxu, fun a b => .ofNat 64 (max a.toNat b.toNat)),
   (.mul, fun a b => .ofNat 64 (a.toNat * b.toNat)),
   (.mulh, fun a b => .ofInt 64 (a.toInt * b.toInt / 18446744073709551616)),
   (.mulhu, fun a b => .ofNat 64 (a.toNat * b.toNat / 18446744073709551616)),
   (.div, fun a b => if b = 0 then .ofInt 64 (-1) else .ofInt 64 (a.toInt.tdiv b.toInt)),
   (.divu, fun a b => if b = 0 then .ofNat 64 0xFFFFFFFFFFFFFFFF else .ofNat 64 (a.toNat / b.toNat)),
   (.rem, fun a b => if b = 0 then a else .ofInt 64 (a.toInt.tmod b.toInt)),
   (.remu, fun a b => if b = 0 then a else .ofNat 64 (a.toNat % b.toNat))]

/-- What the instructions with a 44-bit immediate write, the immediate taken as a signed integer (R173, R179). -/
def immTable : List ((TileId → RegNo → RegNo → BitVec 44 → Instr) × (Word → Int → Word)) :=
  [(.addi, fun a i => .ofInt 64 (a.toInt + i)),
   (.andi, fun a i => a &&& .ofInt 64 i),
   (.ori, fun a i => a ||| .ofInt 64 i),
   (.xori, fun a i => a ^^^ .ofInt 64 i),
   (.slti, fun a i => if a.toInt < i then 1 else 0),
   (.sltiu, fun a i => if (a.toNat : Int) < i % 18446744073709551616 then 1 else 0)]

/-- What the shifts by an immediate write (R179). -/
def shiftTable : List ((TileId → RegNo → RegNo → BitVec 6 → Instr) × (Word → Nat → Word)) :=
  [(.slli, fun a n => .ofNat 64 (a.toNat * 2 ^ n)),
   (.srli, fun a n => .ofNat 64 (a.toNat / 2 ^ n)),
   (.srai, fun a n => .ofInt 64 (a.toInt / ((2 ^ n : Nat) : Int)))]

/-- s0 reads 0 and a write of it is discarded, while any side effect of the instruction takes place: a jump is taken, and a pop moves its
region's TAIL. Any other register reads what was last written, and no register changes with another. Immediates are
sign-extended. Integer arithmetic is modulo 2^64 and raises no flag and no fault (R173). -/
def Obligations.ScalarRegisterFile : Prop :=
  (∀ (y : Ctx) (r q : RegNo) (v : Word),
    y.reg 0 = 0 ∧ y.setReg 0 v = y ∧ (r ≠ 0 → (y.setReg r v).reg r = v) ∧ (q ≠ r → (y.setReg r v).reg q = y.reg q)) ∧
  (∀ (s : State) (t : TileId) (c : Bool), Ready s t c →
    let y := s.ctx t c
    (∀ off : BitVec 24, ∃ u, exec (.jal t 0 off) s = .next u ∧ (u.ctx t c).regs = y.regs ∧
      (u.ctx t c).pc = .ofInt 64 (y.pc.toInt + 8 * off.toInt)) ∧
    (∀ k : BitVec 4,
      let d := y.cr k.toNat
      let p := ceilDiv d.tail 8 * 8 % d.bytes
      d.en = true → (p + d.bytes - d.tail) % d.bytes + 8 ≤ d.occ →
      (s.tile t).badWord ((s.tile t).partBase c + (d.base.toNat * 128 + p)) 8 = none →
      (s.tile t).wpMatch c (d.base.toNat * 128 + p) 8 false = none →
      ∃ u, exec (.ld t 0 ⟨0, true, k, 0⟩) s = .next u ∧ (u.ctx t c).regs = y.regs ∧
        ((u.ctx t c).cr k.toNat).tail = (p + 8) % d.bytes) ∧
    (∀ (rd rs1 : RegNo), ∀ e ∈ immTable, ∀ imm : BitVec 44, rd ≠ 0 → ∃ u, exec (e.1 t rd rs1 imm) s = .next u ∧
      (u.ctx t c).reg rd = e.2 (y.reg rs1) imm.toInt ∧ (u.ctx t c).fpcsr = y.fpcsr ∧ (u.ctx t c).ovf = y.ovf ∧
      (u.ctx t c).phase = y.phase ∧ u.log = s.log) ∧
    (∀ (rd rs1 rs2 : RegNo), ∀ e ∈ aluTable, rd ≠ 0 → ∃ u, exec (e.1 t rd rs1 rs2) s = .next u ∧
      (u.ctx t c).reg rd = e.2 (y.reg rs1) (y.reg rs2) ∧ (u.ctx t c).fpcsr = y.fpcsr ∧ (u.ctx t c).ovf = y.ovf ∧
      (u.ctx t c).phase = y.phase ∧ u.log = s.log) ∧
    (∀ (rd rs1 : RegNo), ∀ e ∈ shiftTable, ∀ sh : BitVec 6, rd ≠ 0 → ∃ u, exec (e.1 t rd rs1 sh) s = .next u ∧
      (u.ctx t c).reg rd = e.2 (y.reg rs1) sh.toNat ∧ (u.ctx t c).fpcsr = y.fpcsr ∧ (u.ctx t c).ovf = y.ovf ∧
      (u.ctx t c).phase = y.phase ∧ u.log = s.log) ∧
    (∀ (rd rs1 : RegNo) (imm : BitVec 44), rd ≠ 0 →
      (∃ u, exec (.li t rd imm) s = .next u ∧ (u.ctx t c).reg rd = .ofInt 64 imm.toInt) ∧
      (∃ u, exec (.pcadd t rd imm) s = .next u ∧ (u.ctx t c).reg rd = .ofInt 64 (y.pc.toInt + imm.toInt)) ∧
      ∀ i ∈ [Instr.clz t rd rs1, .ctz t rd rs1, .popc t rd rs1, .li t rd imm, .pcadd t rd imm], ∃ u, exec i s = .next u ∧
        (u.ctx t c).fpcsr = y.fpcsr ∧ (u.ctx t c).ovf = y.ovf ∧ (u.ctx t c).phase = y.phase ∧ u.log = s.log))

/-- Each register instruction writes its result, computed over the integers, into rd, moves to the next word, and changes
nothing else: no flag, no fault, no other register; CLZ, CTZ and POPC write the number of leading zero bits, of trailing
zero bits and of one bits (R173, R177, R178). -/
def Obligations.RegisterOperationsWriteTheirResult : Prop :=
  ∀ (s : State) (t : TileId) (c : Bool) (rd rs1 rs2 : RegNo), Ready s t c →
    (∀ e ∈ aluTable, ∃ u, exec (e.1 t rd rs1 rs2) s = .next u ∧
      OnlyCtx s u t c ((s.ctx t c).setReg rd (e.2 ((s.ctx t c).reg rs1) ((s.ctx t c).reg rs2))).next) ∧
    (∃ u n, exec (.clz t rd rs1) s = .next u ∧ OnlyCtx s u t c ((s.ctx t c).setReg rd (.ofNat 64 n)).next ∧ n ≤ 64 ∧
      ((s.ctx t c).reg rs1).toNat < 2 ^ (64 - n) ∧ (n < 64 → 2 ^ (63 - n) ≤ ((s.ctx t c).reg rs1).toNat)) ∧
    (∃ u n, exec (.ctz t rd rs1) s = .next u ∧ OnlyCtx s u t c ((s.ctx t c).setReg rd (.ofNat 64 n)).next ∧ n ≤ 64 ∧
      ((s.ctx t c).reg rs1).toNat % 2 ^ n = 0 ∧ (n < 64 → ((s.ctx t c).reg rs1).getLsbD n = true)) ∧
    (∃ u, exec (.popc t rd rs1) s = .next u ∧ OnlyCtx s u t c ((s.ctx t c).setReg rd
      (.ofNat 64 ((List.range 64).foldl (fun n i => n + ((s.ctx t c).reg rs1).toNat / 2 ^ i % 2) 0))).next)

/-- EXT's result by selector: the low 8, 16 or 32 bits, zero-extended or sign-extended (R179). -/
def extResult (sel : Nat) (a : Nat) : Int :=
  let w := 8 * 2 ^ (sel % 4)
  if sel < 4 ∨ a % 2 ^ w < 2 ^ (w - 1) then (a % 2 ^ w : Nat) else ((a % 2 ^ w : Nat) : Int) - ((2 ^ w : Nat) : Int)

/-- The immediate instructions write their results, computed over the integers, and change nothing else; LI, LIH and PCADD
among them, and EXT with each selector that is not reserved (R173, R179). -/
def Obligations.ImmediateOperationsWriteTheirResult : Prop :=
  ∀ (s : State) (t : TileId) (c : Bool) (rd rs1 : RegNo), Ready s t c →
    (∀ e ∈ immTable, ∀ imm : BitVec 44, ∃ u, exec (e.1 t rd rs1 imm) s = .next u ∧
      OnlyCtx s u t c ((s.ctx t c).setReg rd (e.2 ((s.ctx t c).reg rs1) imm.toInt)).next) ∧
    (∀ e ∈ shiftTable, ∀ sh : BitVec 6, ∃ u, exec (e.1 t rd rs1 sh) s = .next u ∧
      OnlyCtx s u t c ((s.ctx t c).setReg rd (e.2 ((s.ctx t c).reg rs1) sh.toNat)).next) ∧
    (∀ imm : BitVec 44, ∃ u, exec (.li t rd imm) s = .next u ∧
      OnlyCtx s u t c ((s.ctx t c).setReg rd (.ofInt 64 imm.toInt)).next) ∧
    (∀ imm : BitVec 20, ∃ u, exec (.lih t rd rs1 imm) s = .next u ∧
      OnlyCtx s u t c ((s.ctx t c).setReg rd
        (.ofNat 64 (((s.ctx t c).reg rs1).toNat % 2 ^ 44 + imm.toNat * 2 ^ 44))).next) ∧
    (∀ imm : BitVec 44, ∃ u, exec (.pcadd t rd imm) s = .next u ∧
      OnlyCtx s u t c ((s.ctx t c).setReg rd (.ofInt 64 ((s.ctx t c).pc.toInt + imm.toInt))).next) ∧
    (∀ sel : BitVec 3, sel ≠ 3 → sel ≠ 7 → ∃ u, exec (.ext t rd rs1 sel) s = .next u ∧
      OnlyCtx s u t c ((s.ctx t c).setReg rd (.ofInt 64 (extResult sel.toNat ((s.ctx t c).reg rs1).toNat))).next)

/-! ### The scalar core: memory (R180–R182) -/

/-- The loads: bytes and whether the result is sign-extended (R180). -/
def loadTable : List ((TileId → RegNo → MemArg → Instr) × Nat × Bool) :=
  [(.lb, 1, true), (.lbu, 1, false), (.lh, 2, true), (.lhu, 2, false), (.lw, 4, true), (.lwu, 4, false), (.ld, 8, false)]

/-- The stores and their bytes (R180). -/
def storeTable : List ((TileId → RegNo → MemArg → Instr) × Nat) := [(.sb, 1), (.sh, 2), (.sw, 4), (.sd, 8)]

/-- A little-endian value of n bytes, extended. -/
def extendBytes (n : Nat) (signed : Bool) (v : Nat) : Word :=
  if signed ∧ 2 ^ (8 * n - 1) ≤ v then .ofInt 64 ((v : Int) - ((2 ^ (8 * n) : Nat) : Int)) else .ofNat 64 v

/-- One tile has become x; besides, at most trace queues, the scratchpad error counters and the alarms that wait for delivery
differ. -/
def OnlyTileCounting (s u : State) (t : TileId) (x : Tile) : Prop :=
  TileBecomes s u t x ∧ CountersOnly s u ∧
    u = { s with tiles := u.tiles, clusters := u.clusters, log := { s.log with staged := u.log.staged } }

/-- A load by address reads n bytes of its own partition at rs1 + OFF22 with the low bits ignored, little-endian, extends
them into rd and changes nothing else, where the address lies below the partition's size and no touched word is
uncorrectable (R180, R181). -/
def Obligations.LoadsByAddress : Prop :=
  ∀ e ∈ loadTable, ∀ (s : State) (t : TileId) (c : Bool) (rd : RegNo) (m : MemArg), Ready s t c →
    m.crm = false → m.cr = 0 →
    let x := s.tile t
    let ea := (((s.ctx t c).reg m.rs1).toInt + m.off.toInt) % 18446744073709551616
    let a := ea.toNat / e.2.1 * e.2.1
    ea < x.partSize c → x.badWord (x.partBase c + a) e.2.1 = none → x.wpMatch c a e.2.1 false = none →
    ∃ u, exec (e.1 t rd m) s = .next u ∧
      OnlyTileCounting s u t ((s.afterFetch t c).setCtx c ((s.ctx t c).setReg rd
        (extendBytes e.2.1 e.2.2 (leNat (memRead x.sp (x.partBase c + a) e.2.1)))).next)

/-- A store by address writes the low n bytes of rsd, little-endian, at rs1 + OFF22 with the low bits ignored: each stored
byte reads as the register's byte, every other byte of the scratchpad reads as before, and no register changes (R180,
R181). -/
def Obligations.StoresByAddress : Prop :=
  ∀ e ∈ storeTable, ∀ (s : State) (t : TileId) (c : Bool) (rsd : RegNo) (m : MemArg), Ready s t c →
    m.crm = false → m.cr = 0 →
    let x := s.tile t
    let ea := (((s.ctx t c).reg m.rs1).toInt + m.off.toInt) % 18446744073709551616
    let a := ea.toNat / e.2 * e.2
    ea < x.partSize c → x.wpMatch c a e.2 true = none →
    ∃ u, exec (e.1 t rsd m) s = .next u ∧
      (∀ i, i < e.2 → SMap.get 0 (u.tile t).sp (x.partBase c + a + i) =
        BitVec.ofNat 8 (((s.ctx t c).reg rsd).toNat / 256 ^ i)) ∧
      (∀ p, (p < x.partBase c + a ∨ x.partBase c + a + e.2 ≤ p) → SMap.get 0 (u.tile t).sp p = SMap.get 0 x.sp p) ∧
      OnlyTileCounting s u t { (s.afterFetch t c).setCtx c (s.ctx t c).next with sp := (u.tile t).sp, spErr := (u.tile t).spErr }

/-- A scalar pop of n bytes from a circular region, and a scalar push: the pointer moves past the aligned access as R92 says,
rd or the region's bytes take the data, and a refused access sets its sticky flag, writes 0 to rd or nothing, and goes on
(R92, R93, R182). -/
def Obligations.CircularRegionAccesses : Prop :=
  ∀ (s : State) (t : TileId) (c : Bool) (r : RegNo) (k : BitVec 4), Ready s t c →
    let x := s.tile t
    let d := (s.ctx t c).cr k.toNat
    let m : MemArg := ⟨0, true, k, 0⟩
    (∀ e ∈ loadTable,
      let p := ceilDiv d.tail e.2.1 * e.2.1 % d.bytes
      let adv := (p + d.bytes - d.tail) % d.bytes + e.2.1
      if d.en = true ∧ adv ≤ d.occ then
        x.badWord (x.partBase c + (d.base.toNat * 128 + p)) e.2.1 = none →
        x.wpMatch c (d.base.toNat * 128 + p) e.2.1 false = none →
        ∃ u, exec (e.1 t r m) s = .next u ∧ OnlyTileCounting s u t ((s.afterFetch t c).setCtx c (((s.ctx t c).setCr k.toNat
            { d with tail := (p + e.2.1) % d.bytes, full := false }).setReg r (extendBytes e.2.1 e.2.2
              (leNat (memRead x.sp (x.partBase c + (d.base.toNat * 128 + p)) e.2.1)))).next)
      else ∃ u, exec (e.1 t r m) s = .next u ∧
        OnlyCtx s u t c (((s.ctx t c).setCr k.toNat { d with underrun := true }).setReg r 0).next) ∧
    (∀ e ∈ storeTable,
      let p := ceilDiv d.head e.2 * e.2 % d.bytes
      let adv := (p + d.bytes - d.head) % d.bytes + e.2
      if d.en = true ∧ adv ≤ d.bytes - d.occ then
        x.wpMatch c (d.base.toNat * 128 + p) e.2 true = none →
        let d' := { d with head := (p + e.2) % d.bytes, full := decide (d.occ + adv = d.bytes) }
        ∃ u, exec (e.1 t r m) s = .next u ∧
          OnlyTileCounting s u t { (s.afterFetch t c).setCtx c ((s.ctx t c).setCr k.toNat d').next with sp := (u.tile t).sp, spErr := (u.tile t).spErr } ∧
          (∀ i, i < e.2 → SMap.get 0 (u.tile t).sp (x.partBase c + (d.base.toNat * 128 + p) + i) =
            BitVec.ofNat 8 (((s.ctx t c).reg r).toNat / 256 ^ i)) ∧
          (∀ q, (q < x.partBase c + (d.base.toNat * 128 + p) ∨ x.partBase c + (d.base.toNat * 128 + p) + e.2 ≤ q) →
            SMap.get 0 (u.tile t).sp q = SMap.get 0 x.sp q)
      else ∃ u, exec (e.1 t r m) s = .next u ∧
        OnlyCtx s u t c ((s.ctx t c).setCr k.toNat { d with overrun := true }).next)

/-- What the conditional branches test (R184). -/
def branchTable : List ((TileId → RegNo → RegNo → BitVec 24 → Instr) × (Word → Word → Bool)) :=
  [(.beq, fun a b => decide (a.toNat = b.toNat)), (.bne, fun a b => decide (a.toNat ≠ b.toNat)),
   (.blt, fun a b => decide (a.toInt < b.toInt)), (.bge, fun a b => decide (b.toInt ≤ a.toInt)),
   (.bltu, fun a b => decide (a.toNat < b.toNat)), (.bgeu, fun a b => decide (b.toNat ≤ a.toNat))]

/-- A branch goes to PC + 8 × OFF24 where its test holds and to the next word where it does not; JAL and JALR write PC + 8 to
rd and go to their targets, JALR's taken from rs1 before rd is written and with its low three bits cleared (R184). -/
def Obligations.BranchesAndJumps : Prop :=
  ∀ (s : State) (t : TileId) (c : Bool), Ready s t c →
    let y := s.ctx t c
    let linked (rd : RegNo) : Ctx := y.setReg rd (.ofInt 64 (y.pc.toInt + 8))
    (∀ e ∈ branchTable, ∀ (rs1 rs2 : RegNo) (off : BitVec 24), 
      let d : Int := if e.2 (y.reg rs1) (y.reg rs2) = true then 8 * off.toInt else 8
      ∃ u, exec (e.1 t rs1 rs2 off) s = .next u ∧
        OnlyCtx s u t c { y with skipMatch := false, pc := .ofInt 64 (y.pc.toInt + d) }) ∧
    (∀ (rd : RegNo) (off : BitVec 24), ∃ u, exec (.jal t rd off) s = .next u ∧
      OnlyCtx s u t c { linked rd with skipMatch := false, pc := .ofInt 64 (y.pc.toInt + 8 * off.toInt) }) ∧
    (∀ (rd rs1 : RegNo) (imm : BitVec 44), ∃ u, exec (.jalr t rd rs1 imm) s = .next u ∧
      OnlyCtx s u t c { linked rd with skipMatch := false, pc := .ofInt 64 (((y.reg rs1).toInt + imm.toInt) / 8 * 8) })

/-- A terminating fault has stopped context c of tile t: it is FAULTED with its registers, counters and scratchpad as they
were, nothing of it is left in Burin, Stylus or Stipple, its zone is aborted, and a record of class PROGRAM with the fault's
code stands in the log (R74, R265, R462). -/
def FaultStops (s u : State) (t : TileId) (c : Bool) (code : Nat) : Prop :=
  (u.ctx t c).phase = .faulted ∧ (u.ctx t c).regs = (s.ctx t c).regs ∧ (u.ctx t c).pc = (s.ctx t c).pc ∧
  (u.ctx t c).sig = (s.ctx t c).sig ∧ (u.ctx t c).crs = (s.ctx t c).crs ∧ (u.tile t).sp = (s.tile t).sp ∧
  (u.tile t).drained c = true ∧ (u.zone (s.ctx t c).zone).aborted = true ∧
  (s.log.errs.length < 7168 → ∃ r ∈ u.log.errs, r.code = code ∧ r.cls = 0)

/-- A scalar access whose address is not below the partition's size, a fetch at or beyond it, and a T_CRn_CFG write whose
region does not fit in it raise the partition violation: nothing is read or written and the context stops (R72, R181, R187,
R196). A word that no instruction encodes, or that holds a reserved value, raises the illegal-opcode fault: so do EXT with a reserved
selector and a load or store with a field that its form does not use set (R172, R179, R181, R196). -/
def Obligations.FaultingInstructionsStopTheContext : Prop :=
  ∀ (s : State) (t : TileId) (c : Bool),
    (Ready s t c →
      (∀ e ∈ loadTable, ∀ (r : RegNo) (m : MemArg), m.crm = false → m.cr = 0 →
        (s.tile t).partSize c ≤ ((s.ctx t c).reg m.rs1 + m.off.signExtend 64).toNat →
        ∃ u, exec (e.1 t r m) s = .next u ∧ FaultStops s u t c 0x0102) ∧
      (∀ e ∈ storeTable, ∀ (r : RegNo) (m : MemArg), m.crm = false → m.cr = 0 →
        (s.tile t).partSize c ≤ ((s.ctx t c).reg m.rs1 + m.off.signExtend 64).toNat →
        ∃ u, exec (e.1 t r m) s = .next u ∧ FaultStops s u t c 0x0102) ∧
      (∀ (k : BitVec 4) (v : Word), (s.tile t).partSize c < bits v.toNat 7 14 * 128 + bits v.toNat 21 15 * 128 →
        s.landingAt t c (0x040 + 2 * k.toNat) = false →
        ∃ u, exec (.tCrnCfgWrite t k v) s = .next u ∧ FaultStops s u t c 0x0102)) ∧
    (s.tileRuns t = true → (s.tile t).active = some c → (s.ctx t c).halted = false → (s.ctx t c).gate = Gate.none →
      (s.tile t).partSize c ≤ (s.ctx t c).pc.toNat →
      ∃ u, exec (.nop t) s = .next u ∧ FaultStops s u t c 0x0102) ∧
    (Ready s t c →
      (∀ w : Word, oz8Illegal t w = true → ∃ u, exec (.illegalInstruction t w) s = .next u ∧ FaultStops s u t c 0x0101) ∧
      (∀ (rd rs1 : RegNo) (sel : BitVec 3), sel = 3 ∨ sel = 7 →
        ∃ u, exec (.ext t rd rs1 sel) s = .next u ∧ FaultStops s u t c 0x0101) ∧
      (∀ e ∈ loadTable, ∀ (r : RegNo) (m : MemArg), memArgOk m = false →
        ∃ u, exec (e.1 t r m) s = .next u ∧ FaultStops s u t c 0x0101) ∧
      (∀ e ∈ storeTable, ∀ (r : RegNo) (m : MemArg), memArgOk m = false →
        ∃ u, exec (e.1 t r m) s = .next u ∧ FaultStops s u t c 0x0101))

/-! ### The scalar core: T_ registers (R186, R187, R197–R202) -/

/-- An instruction that writes v into T_ register a of a tile whose active context is y (R186, R187). -/
def WritesT (i : Instr) (t : TileId) (y : Ctx) (a : BitVec 12) (v : Word) : Prop :=
  (∃ rs1, i = .twr t rs1 a ∧ v = y.reg rs1) ∨ (∃ imm : BitVec 32, i = .twri t a imm ∧ v = imm.zeroExtend 64)

/-- TRD writes the register's value into rd and changes nothing else. The registers read as the context and the tile hold
them: the timestamp, the count of active cycles, the task's arguments, the overflow flags, the rounding and exception register, the
keys, the address space and the post sequence; T_PART gives the partition's physical base in bits 36:16, its size in bits 15:8 and the
boundary in bits 7:0; an address that no register occupies reads 0, and T_STP_TN6 is held while Stipple has work of the context. Every
address answers what the register holds as the instruction finds it (R72, R169, R186, R197–R202). -/
def Obligations.TRegisterReads : Prop :=
  ∀ (s : State) (t : TileId) (c : Bool) (rd : RegNo), Ready s t c →
    let y := s.ctx t c
    let x := s.tile t
    let reads (a : BitVec 12) (v : Word) : Prop :=
      ∃ u, exec (.trd t rd a) s = .next u ∧ OnlyCtx s u t c (y.setReg rd v).next
    reads 0x003 y.tcCount ∧ reads 0x004 s.time ∧ (∀ i : Fin 4, reads (.ofNat 12 (0x008 + i.val)) (SMap.get 0 y.args i.val)) ∧
    reads 0x011 (y.ovf.zeroExtend 64) ∧ reads 0x020 (y.fpcsr.zeroExtend 64) ∧ reads 0x030 y.stpKeyLo ∧
    reads 0x031 y.stpKeyHi ∧ reads 0x032 y.stpCtl ∧ reads 0x080 (y.asid.zeroExtend 64) ∧ reads 0x081 y.xlatVa ∧
    reads 0x085 y.strmErr ∧ reads 0x0C1 (y.postSeq.zeroExtend 64) ∧ reads 0x111 x.dbgHit ∧
    (x.stipple.has c = true → exec (.trd t rd 0x033) s = .next s ∧ exec (.tStpTn6Access t (.read rd)) s = .next s) ∧
    (x.stipple.has c = false → reads 0x033 y.stpTn6 ∧
      ∃ u, exec (.tStpTn6Access t (.read rd)) s = .next u ∧ OnlyCtx s u t c (y.setReg rd y.stpTn6).next) ∧
    (x.bound ≤ 32 → reads 0x002 (.ofNat 64
      (if c then x.bound * 65536 * 65536 + (32 - x.bound) * 256 + x.bound else x.bound * 256 + x.bound))) ∧
    (∀ a : BitVec 12, a ≠ 0x033 → reads a (s.tRead t c a.toNat)) ∧
    (∀ n : Fin 16, ∀ v, (v = (y.cr n).cfgWord → reads (.ofNat 12 (0x040 + 2 * n.val)) (.ofNat 64 v)) ∧
      (v = (y.cr n).ptrWord → reads (.ofNat 12 (0x041 + 2 * n.val)) (.ofNat 64 v))) ∧
    (∀ a : BitVec 12, (0x034 ≤ a.toNat ∧ a.toNat < 0x040) ∨ (0x061 ≤ a.toNat ∧ a.toNat < 0x080) ∨
      (0x0D1 ≤ a.toNat ∧ a.toNat < 0x0E0) ∨ 0x140 ≤ a.toNat ∨ a = 0x060 → reads a 0)

/-- TWR and TWRI write a T_ register by its fields' access codes: T_FPCSR takes its flags, and a rounding code that is not
reserved; T_SIG_OVF and the write-one-to-clear bits of T_STRM_ERR clear where the written bit is 1; the Stipple registers take
the value, T_STP_TN6 only while Stipple holds no work of the context; a write of a register that is read-only, or of an address
that no register occupies, is ignored. Nothing else changes (R14, R169, R186, R187, R197). -/
def Obligations.TRegisterWrites : Prop :=
  ∀ (s : State) (t : TileId) (c : Bool) (i : Instr) (a : BitVec 12) (v : Word), Ready s t c →
    WritesT i t (s.ctx t c) a v →
    let y := s.ctx t c
    let becomes (z : Ctx) : Prop := ∃ u, exec i s = .next u ∧ OnlyCtx s u t c z.next
    let rm := if (v.extractLsb' 0 3).toNat ≤ 4 then v.extractLsb' 0 3 else y.fpcsr.extractLsb' 0 3
    (a = 0x020 → becomes { y with fpcsr := v.extractLsb' 8 5 ++ (0#5) ++ rm }) ∧
    (a = 0x011 → becomes { y with ovf := y.ovf &&& ~~~ (v.extractLsb' 0 16) }) ∧
    (a = 0x085 → becomes { y with strmErr := y.strmErr &&& ~~~ (v &&& 0xC000000000000000) }) ∧
    (a = 0x030 → becomes { y with stpKeyLo := v }) ∧ (a = 0x031 → becomes { y with stpKeyHi := v }) ∧
    (a = 0x032 → becomes { y with stpCtl := v &&& 1 }) ∧
    (a = 0x033 → (s.tile t).stipple.has c = false → becomes { y with stpTn6 := v }) ∧
    (a = 0x033 → (s.tile t).stipple.has c = true → exec i s = .next s) ∧
    (∀ r, (s.tile t).stipple.has c = true → exec (.tStpTn6Access t (.write r)) s = .next s) ∧
    (∀ r, (s.tile t).stipple.has c = false → ∃ u, exec (.tStpTn6Access t (.write r)) s = .next u ∧
      OnlyCtx s u t c { y with stpTn6 := y.reg r }.next) ∧
    (∀ n : Fin 16, a = .ofNat 12 (0x041 + 2 * n.val) → becomes (y.setCr n
      { y.cr n with underrun := (y.cr n).underrun && !v.getLsbD 45, overrun := (y.cr n).overrun && !v.getLsbD 44 })) ∧
    ((a.toNat < 0x011 ∨ (0x080 ≤ a.toNat ∧ a.toNat < 0x085) ∨ (0x0C1 ≤ a.toNat ∧ a.toNat < 0x200)) → becomes y)

/-- A write of T_CRn_CFG whose region lies in the partition sets the region's place and size, empties it and clears its sticky
flags; EN is stored as 0 where the size is 0 or above 16,384 lines. Of a post ring it clears the drop and message counts as well,
and keeps the parked mark. While the post engine lands an entry into the descriptor the write waits, and changes nothing (R98, R297,
R300). -/
def Obligations.CircularRegionSetup : Prop :=
  ∀ (s : State) (t : TileId) (c : Bool) (n : BitVec 4) (v : Word), Ready s t c →
    let y := s.ctx t c
    let size := v.extractLsb' 21 15
    let base := v.extractLsb' 7 14
    (s.landingAt t c (0x040 + 2 * n.toNat) = true → exec (.tCrnCfgWrite t n v) s = .next s) ∧
    (s.landingAt t c (0x040 + 2 * n.toNat) = false →
    base.toNat * 128 + size.toNat * 128 ≤ (s.tile t).partSize c → y.postEn = false →
    let r : CircReg :=
      { en := v.getLsbD 63 && decide (1 ≤ size.toNat ∧ size.toNat ≤ 16384), size := size, base := base, head := 0, tail := 0,
        full := false, overrun := false, underrun := false }
    ∃ u, exec (.tCrnCfgWrite t n v) s = .next u ∧ r.occ = 0 ∧
      (n.toNat < 7 → OnlyCtx s u t c (y.setCr n.toNat r).next) ∧
      (7 ≤ n.toNat → ∃ k, k = (if n = 7 then 8 else n.toNat - 8) ∧
        OnlyCtx s u t c ((y.setCr n.toNat r).setRing k { PostRing.reset with parked := (y.ring k).parked }).next))

/-- A scalar write to T_CR_ADV advances the named descriptor's TAIL by COUNT bytes modulo its size; a COUNT above the
occupancy empties the region and sets UNDERRUN; a descriptor whose EN is 0 only sets UNDERRUN; COUNT = 0 otherwise changes
nothing (R97). -/
def Obligations.ReleaseOfReadData : Prop :=
  ∀ (s : State) (t : TileId) (c : Bool) (i : Instr) (v : Word), Ready s t c → WritesT i t (s.ctx t c) 0x060 v →
    let n := (v.extractLsb' 0 4).toNat
    let count := (v.extractLsb' 32 22).toNat
    let d := (s.ctx t c).cr n
    ∃ u d', exec i s = .next u ∧ OnlyCtx s u t c ((s.ctx t c).setCr n d').next ∧
      (d.en = false → d' = { d with underrun := true }) ∧
      (d.en = true → count = 0 → d' = d) ∧
      (d.en = true → 0 < count → count ≤ d.occ → d' = { d with tail := (d.tail + count) % (d.size.toNat * 128), full := false }) ∧
      (d.en = true → d.occ < count → d' = { d with tail := d.head, full := false, underrun := true } ∧ d'.occ = 0)

/-! ### The scalar core: control (R57, R58, R63, R188–R195, R477) -/

/-- NOP moves to the next word and does nothing else; IBINV also removes every line of the active context from the instruction
buffer and every fill of one that is under way, and none of the other context's; BRK acts as NOP where HALT_ON_BRK is clear, and halts
the context otherwise. SIG takes one count where it waits and signals one counter: a counter at 15 stays there and sets its overflow
flag. Where the waiting heads of the other engines, which have higher numbers, leave no count of its counter, the core is gated and
nothing of the SIG happens; presented again, it starts when a count is left (R52, R57–R60, R188, R191, R195, R477). -/
def Obligations.NopIbinvBrkAndSig : Prop :=
  (∀ (s : State) (t : TileId) (c : Bool) (code : BitVec 16), Ready s t c →
     (∃ u, exec (.nop t) s = .next u ∧ OnlyCtx s u t c (s.ctx t c).next) ∧
     (∃ u, exec (.ibinv t) s = .next u ∧
       OnlyTile s u t { (s.afterFetch t c).setCtx c (s.ctx t c).next with
         ib := (u.tile t).ib, ibAt := (u.tile t).ibAt, fills := (u.tile t).fills } ∧
       (∀ l, l ∈ (u.tile t).ib ↔ l ∈ (s.tile t).ib ∧ l.ctx ≠ c) ∧ ∀ f ∈ (u.tile t).fills, f.1 ≠ c) ∧
     ((s.tile t).haltOnBrk = false ∨ (s.ctx t c).skipMatch = true →
       ∃ u, exec (.brk t code) s = .next u ∧ OnlyCtx s u t c (s.ctx t c).next) ∧
     ((s.tile t).haltOnBrk = true → (s.ctx t c).skipMatch = false →
       ∃ u, exec (.brk t code) s = .next u ∧
         OnlyTile s u t { (s.afterFetch t c).setCtx c { s.ctx t c with halted := true, steps := 0, skipMatch := true } with
           dbgHit := (0#11) ++ (s.ctx t c).pc.extractLsb' 0 21 ++ code ++ (if c then 1#8 else 0#8) ++ 0x05#8 })) ∧
  (∀ (s : State) (t : TileId) (c : Bool) (w : WaitSig),
     let y := s.ctx t c
     let may := ∀ k, w.wait = some k → (s.tile t).waitersAbove c 0 k < (y.sigOf k).toNat
     let left (k : BitVec 4) : BitVec 4 := if w.wait = some k then y.sigOf k - 1 else y.sigOf k
     let does (x : Tile) : Prop := ∃ u, exec (.sig t w) s = .next u ∧
       (∀ k, (u.ctx t c).sigOf k = if w.sig = some k ∧ left k ≠ 15 then left k + 1 else left k) ∧
       (∀ k : BitVec 4, (u.ctx t c).ovf.getLsbD k.toNat = (y.ovf.getLsbD k.toNat || decide (w.sig = some k ∧ left k = 15))) ∧
       (u.ctx t c).gate = Gate.none ∧ (u.ctx t c).pc = y.pc + 8 ∧ (u.ctx t c).regs = y.regs ∧
       ∃ b, OnlyTile s u t (x.setCtx c { y.next with sig := (u.ctx t c).sig, ovf := (u.ctx t c).ovf, gate := Gate.none, skipMatch := b })
     (Ready s t c → (may → does (s.afterFetch t c)) ∧
       (¬ may → ∃ u, exec (.sig t w) s = .next u ∧ OnlyCtx s u t c { y with gate := .sig w, skipMatch := false })) ∧
     (s.tileRuns t = true → (s.tile t).active = some c → y.halted = false → y.gate = .sig w →
       (may → does (s.tile t)) ∧ (¬ may → exec (.sig t w) s = .next s)))

/-- SYNC reports its arrival when Burin, Stylus and Stipple hold no work of the context, and waits in D until then; the program
counter stays at the SYNC until the barrier's end (R66, R192). -/
def Obligations.SyncWaitsForTheEngines : Prop :=
  ∀ (s : State) (t : TileId) (c : Bool) (f : SyncFields),
    (Ready s t c → ∃ u, exec (.sync t f) s = .next u ∧ OnlyCtx s u t c
      { s.ctx t c with skipMatch := false, gate := if (s.tile t).drained c = true then .arrive f else .sync f }) ∧
    (s.tileRuns t = true → (s.tile t).active = some c → (s.ctx t c).halted = false → (s.ctx t c).gate = .sync f →
      ((s.tile t).drained c = true →
        ∃ u, exec (.sync t f) s = .next u ∧ OnlyTile s u t ((s.tile t).setCtx c { s.ctx t c with gate := .arrive f })) ∧
      ((s.tile t).drained c = false → exec (.sync t f) s = .next s))

/-- TEND ends the task: without the audit the context is DONE at once; with it the core waits, and the audit's check makes the
context DONE when every engine is idle for it and every counter and overflow flag is zero, raises the audit fault when they are
not, and waits while an engine is busy (R63, R193). -/
def Obligations.TaskEndAndItsAudit : Prop :=
  ∀ (s : State) (t : TileId) (c : Bool),
    let y := s.ctx t c
    (Ready s t c → (s.tile t).audit = false → ∃ u, exec (.tend t) s = .next u ∧ (u.ctx t c).phase = .done ∧
      (u.ctx t c).pc = y.pc + 8 ∧ (u.ctx t c).regs = y.regs ∧ (u.tile t).sp = (s.tile t).sp) ∧
    (Ready s t c → (s.tile t).audit = true → ∃ u, exec (.tend t) s = .next u ∧
      OnlyCtx s u t c { y.next with gate := .audit }) ∧
    (s.tileRuns t = true → (s.tile t).active = some c → y.halted = false → y.gate = .audit →
      ((s.tile t).engBusy c = 0 → (∀ k, y.sigOf k = 0) → y.ovf = 0 →
        ∃ u, exec (.auditCheck t) s = .next u ∧ (u.ctx t c).phase = .done ∧ (u.ctx t c).pc = y.pc ∧
          (u.ctx t c).regs = y.regs) ∧
      ((s.tile t).engBusy c = 0 → (∃ k, y.sigOf k ≠ 0) ∨ y.ovf ≠ 0 →
        ∃ u, exec (.auditCheck t) s = .next u ∧ FaultStops s u t c 0x0108) ∧
      ((s.tile t).engBusy c ≠ 0 → exec (.auditCheck t) s = .next s))

/-! ### The engines (R53–R57, R72, R117, R204–R236) -/

/-- The tile, the engine's number (R53) and the scalar operands that D captures, of an instruction for a per-tile engine. -/
def engineOperands : Instr → Option (TileId × Nat × List RegNo)
  | .mstat t _ f => some (t, 1, [f.ra, f.rp, f.rsh])
  | .mmul t _ f => some (t, 1, [f.ra, f.rp, f.rsh])
  | .mread t _ f => some (t, 1, [f.rd, f.rsc, f.rsh])
  | .vadd t _ _ | .vsub t _ _ | .vmul t _ _ | .vdiv t _ _ | .vsqrt t _ _ | .vfma t _ _ | .vfms t _ _ | .vfnma t _ _
  | .vrem t _ _ | .vmin t _ _ | .vmax t _ _ | .vminnum t _ _ | .vmaxnum t _ _ | .vrint t _ _ | .vscaleb t _ _
  | .vlogb t _ _ | .vnext t _ _ | .vcmp t _ _ | .vclass t _ _ | .vsgn t _ _ | .vcvtr t _ _ _ _
  | .viadd t _ _ | .visub t _ _ | .vimul t _ _ | .vand t _ _ | .vor t _ _ | .vxor t _ _ | .vshl t _ _ | .vshr t _ _
  | .vimin t _ _ | .vimax t _ _ | .vicmp t _ _ | .vsel t _ _ | .vperm t _ _ | .vred t _ _ | .vsf t _ _
  | .vstg t _ _ _ => some (t, 2, [])
  | .vsplat t _ f => some (t, 2, [f.va])
  | .vgumbel t _ _ rt re => some (t, 2, [rt, re])
  | .vld t _ f => some (t, 2, [f.ra, f.rb])
  | .vst t _ _ ra _ _ | .vldl t _ _ ra _ _ _ | .vstl t _ _ ra _ _ _ => some (t, 2, [ra])
  | .vcvt t _ f => some (t, 2, [f.rs, f.rd, f.rn, f.rp, f.rt, f.re])
  | .vsplit32 t _ rs rd rq rn _ => some (t, 2, [rs, rd, rq, rn])
  | .vslice64 t _ rs rd rq rsh rsc _ _ => some (t, 2, [rs, rd, rq, rsh, rsc])
  | .vsample t _ f => some (t, 2, [f.rz, f.rn, f.rb, f.rt, f.re, f.rr])
  | .rraw32 t _ f | .runi t _ f | .rbern t _ f | .rraw128 t _ f => some (t, 3, [f.rd, f.rn, f.rt, f.re])
  | .xrun t _ ra rl => some (t, 4, [ra, rl])
  | _ => none

/-- RRAW128 with the TN6 generator selected, which is reserved (R169, R228). -/
def rraw128Tn6 (y : Ctx) : Instr → Bool
  | .rraw128 _ _ _ => y.stpCtl.getLsbD 0
  | _ => false

/-- The scalar operands that an instruction for the stream engine captures. -/
def streamOperands : Instr → Option (TileId × List RegNo)
  | .sdesc t _ ra => some (t, [ra])
  | .sget t _ f | .sput t _ f => some (t, [f.rl, f.rv, f.rn, f.rst])
  | .samo t _ f => some (t, [f.rv, f.rx, f.rc, f.rr])
  | .sflag t _ rv rx _ _ => some (t, [rv, rx])
  | .fence t _ _ => some (t, [])
  | _ => none

/-- Issue to a per-tile engine: every instruction of Burin, Stylus and Stipple, and XRUN, enters the queue of its engine with the
scalar operands, the rounding direction, the Stipple key and generator as they stand, and the core goes on to the next word;
nothing else changes. A full queue (8, 16, 8 and 2 entries) stalls it, which changes nothing. A reserved value in its fields raises the
illegal-opcode fault instead. Likewise the stream instructions and FENCE enter their context's queue of 32, and PSEND its queue of
16 (R53, R54, R172, R194, R204, R234, R236). -/
def Obligations.EngineInstructionsEnterTheirQueue : Prop :=
  ∀ (s : State) (i : Instr) (t : TileId) (c : Bool), Ready s t c →
    let x := s.tile t
    let y := s.ctx t c
    (∀ (e : Nat) (regs : List RegNo), engineOperands i = some (t, e, regs) →
      let depth : Nat := if e = 2 then 16 else if e = 4 then 2 else 8
      let o : EngOp := { ins := i, ctx := c, regs := regs.map y.reg, rm := y.fpcsr.extractLsb' 0 3,
                         key := y.stpKeyHi ++ y.stpKeyLo, tn6 := y.stpCtl.getLsbD 0, pc := y.pc }
      let legal := instrOk i = true ∧ rraw128Tn6 y i = false
      (legal → (x.eng e).queue.length < depth → ∃ u, exec i s = .next u ∧
        OnlyTile s u t (((s.afterFetch t c).setEng e { x.eng e with queue := (x.eng e).queue ++ [o] }).setCtx c y.next)) ∧
      (legal → depth ≤ (x.eng e).queue.length → exec i s = .next s) ∧
      (¬ legal → ∃ u, exec i s = .next u ∧ FaultStops s u t c 0x0101)) ∧
    (∀ regs, streamOperands i = some (t, regs) →
      (instrOk i = true → y.stream.length < 32 → ∃ u o, exec i s = .next u ∧
        OnlyCtx s u t c { y with stream := y.stream ++ [o] }.next ∧ o.op.ins = i ∧ o.op.regs = regs.map y.reg ∧
        o.op.ctx = c ∧ o.op.pc = y.pc ∧ o.phase = .queued ∧ o.next = 0 ∧ o.batches = []) ∧
      (instrOk i = true → 32 ≤ y.stream.length → exec i s = .next s) ∧
      (instrOk i = false → ∃ u, exec i s = .next u ∧ FaultStops s u t c 0x0101)) ∧
    (∀ w f, i = .psend t w f →
      (instrOk i = true → y.postQ.length < 16 → ∃ u o, exec i s = .next u ∧
        OnlyCtx s u t c { y with postQ := y.postQ ++ [o] }.next ∧ o.ins = i ∧ o.regs = [y.reg f.rdst, y.reg f.rsrc]) ∧
      (instrOk i = true → 16 ≤ y.postQ.length → exec i s = .next s) ∧
      (instrOk i = false → ∃ u, exec i s = .next u ∧ FaultStops s u t c 0x0101))

/-- The instruction at the head of Burin's, Stylus's or Stipple's queue starts when its counter has a count that the waiting heads of
engines with higher numbers leave, which it takes, and no instruction that its engine has started stands in its way: none does in
Stipple; in Burin an MSTAT and an MMUL wait for each other; in Stylus everything waits for a bulk instruction, and for one that writes a
vector register it uses. Until then nothing changes. Its scratchpad footprint is checked first: a violation of the partition stops its
context (R55, R57, R59, R72, R135, R206, R211, R214). -/
def Obligations.EngineInstructionStarts : Prop :=
  ∀ (s : State) (t : TileId) (e : Nat) (o : EngOp) (rest : List EngOp), s.tileRuns t = true → 1 ≤ e → e ≤ 3 →
    ((s.tile t).eng e).queue = o :: rest →
    let x := s.tile t
    let y := x.ctx o.ctx
    let stands (r : EngOp) : Prop := (e = 1 ∧ x.burinHazard o r = true) ∨ (e = 2 ∧ x.stylusHazard o r = true)
    let may := (∀ k, (engWaitSig o.ins).wait = some k → x.waitersAbove o.ctx e k < (y.sigOf k).toNat) ∧
      ∀ r ∈ (x.eng e).running, ¬ stands r
    (may → x.violation o.ctx (x.footprint o) = none → x.mixedI32 o = false →
      ∃ u y', exec (.engineInstructionStart t e) s = .next u ∧
        OnlyTile s u t ((x.setEng e { x.eng e with queue := rest, running := (x.eng e).running ++ [o] }).setCtx o.ctx y') ∧
        (∀ k, y'.sigOf k = if (engWaitSig o.ins).wait = some k then y.sigOf k - 1 else y.sigOf k) ∧
        { y' with sig := y.sig } = y) ∧
    (∀ a, may → s.inExchange t o.ctx = false → x.violation o.ctx (x.footprint o) = some a →
      ∃ u, exec (.engineInstructionStart t e) s = .next u ∧ FaultStops s u t o.ctx 0x0102) ∧
    (¬ may → exec (.engineInstructionStart t e) s = .next s) ∧
    (∀ r ∈ (x.eng e).running,
      (e = 1 → ∀ a b v w f g, (o.ins = .mmul a v f ∧ r.ins = .mstat b w g) ∨ (o.ins = .mstat b w g ∧ r.ins = .mmul a v f) →
        exec (.engineInstructionStart t e) s = .next s) ∧
      (e = 2 → isBulk r.ins = true ∨ (∃ v, v ∈ vecWrites r.ins ∧ v ∈ vecUses o.ins) →
        exec (.engineInstructionStart t e) s = .next s))

/-- What the integer vector instructions make of two lanes of w bits, by SUB (R216, R218). -/
def laneTable : List ((TileId → WaitSig → VecF → Instr) × (Nat → Nat → Nat → Nat → Nat)) :=
  [(.viadd, fun w _ a b => (a + b) % 2 ^ w),
   (.visub, fun w _ a b => (a + 2 ^ w - b) % 2 ^ w),
   (.vimul, fun w _ a b => a * b % 2 ^ w),
   (.vand, fun _ _ a b => a &&& b),
   (.vor, fun _ _ a b => a ||| b),
   (.vxor, fun _ _ a b => a ^^^ b),
   (.vshl, fun w _ a b => a * 2 ^ (b % w) % 2 ^ w),
   (.vshr, fun w sub a b =>
      if sub = 1 ∧ 2 ^ (w - 1) ≤ a then (a / 2 ^ (b % w) + (2 ^ w - 2 ^ (w - b % w))) else a / 2 ^ (b % w)),
   (.vimin, fun w sub a b => if sub = 1 then min a b else if sintOf w a ≤ sintOf w b then a else b),
   (.vimax, fun w sub a b => if sub = 1 then max a b else if sintOf w a ≤ sintOf w b then b else a),
   (.vicmp, fun w sub a b =>
      let r : Bool := match sub with
        | 0 => decide (a = b)
        | 1 => decide (sintOf w a < sintOf w b)
        | 2 => decide (sintOf w a ≤ sintOf w b)
        | 3 => decide (a < b)
        | 4 => decide (a ≠ b)
        | 5 => decide (sintOf w b ≤ sintOf w a)
        | 6 => decide (sintOf w b < sintOf w a)
        | _ => decide (b ≤ a)
      if r = true then 2 ^ w - 1 else 0)]

/-- An integer vector instruction that finishes writes every lane that its mask selects, keeps the others, raises no flag, signals
its counter and leaves its engine; no other vector register, no scratchpad byte and no other state changes (R55, R57, R215, R216,
R218). -/
def Obligations.IntegerVectorResults : Prop :=
  ∀ p ∈ laneTable, ∀ (s : State) (t : TileId) (o : EngOp) (rest : List EngOp) (w : WaitSig) (f : VecF),
    s.tileRuns t = true → (s.tile t).stylus.aborting = [] → (s.tile t).stylus.running = o :: rest → o.ins = p.1 t w f →
    instrOk o.ins = true →
    let x := s.tile t
    let n := if f.ty.getLsbD 0 then 64 else 32
    let lane (d : BitVec 1024) (i : Nat) : Nat := (d.extractLsb' (n * i) n).toNat
    ∃ u d, exec (.engineInstructionFinish t 2) s = .next u ∧
      (∀ i, i < 1024 / n → lane d i = if f.mv = true ∧ (x.vreg f.vm).getLsbD (n * i) = false then lane (x.vreg f.vd) i
        else p.2 n f.sub.toNat (lane (x.vreg f.va) i) (lane (x.vreg f.vb) i)) ∧
      (u.tile t).vreg f.vd = d ∧ (∀ v, v ≠ f.vd → (u.tile t).vreg v = x.vreg v) ∧
      OnlyTile s u t ({ x with stylus := { x.stylus with running := rest }, vregs := (u.tile t).vregs }.setCtx o.ctx
        ((x.ctx o.ctx).signalOpt w.sig))

/-- The stores of the engines change as their instructions say: MSTAT of I8 elements fills the operand buffer with N columns of 32 × K32
elements from whole lines; an MMUL of one row of I8 elements into I32 accumulators adds each column's 32 products, to zero where
ZERO is set and to the accumulator otherwise, and changes no other accumulator; RRAW32 from the TN6 generator writes the upper halves
of its outputs, fills the last line with zeros and leaves the state it has reached. An instruction that a stop made its engine abandon
leaves the engine without a signal, a flag or a change of its context or of any other tile; which of its lines had been written is
a free value (assumption 10) (R74, R130–R132, R140, R159, R168, R169, R209, R210, R228). -/
def Obligations.EnginesChangeTheirStores : Prop :=
  ∀ (s : State) (t : TileId) (o : EngOp) (rest : List EngOp) (w : WaitSig), s.tileRuns t = true →
    let x := s.tile t
    let arg (i : Nat) : Nat := (o.regs.getD i 0).toNat
    let at0 (n : Nat) : Nat := x.partBase o.ctx + arg 0 / n * n
    let byte (p : Nat) : Byte := SMap.get 0 x.sp p
    let lines (n : Nat) : Nat := 128 * ceilDiv n 128
    (∀ e, 1 ≤ e → e ≤ 3 → (x.eng e).aborting = o :: rest → ∃ u, exec (.engineInstructionFinish t e) s = .next u ∧
      (u.tile t).eng e = { x.eng e with aborting := rest } ∧ (∀ c, u.ctx t c = s.ctx t c) ∧ (∀ i, i ≠ t → u.tile i = s.tile i) ∧
      u = { s with tiles := u.tiles, free := u.free }) ∧
    (∀ f : MstatF, x.burin.aborting = [] → x.burin.running = o :: rest → o.ins = .mstat t w f → f.fmt = 6 →
      let n := arg 2 % 64
      let k := arg 2 / 65536 % 64
      1 ≤ n → n ≤ 32 → 1 ≤ k → k * n ≤ 1024 → x.badWord (at0 128) (lines (32 * k * n)) = none →
      ∃ u, exec (.engineInstructionFinish t 1) s = .next u ∧ (u.tile t).opbuf.n = n ∧ (u.tile t).opbuf.k32 = k ∧
        (u.tile t).opbuf.fmt = 6 ∧ (∀ i, i < 32 * k * n → (u.tile t).opbuf.elems.getD i 0 = (byte (at0 128 + i)).zeroExtend 16) ∧
        (u.tile t).sp = x.sp ∧ (u.tile t).burin = { x.burin with running := rest } ∧ (u.tile t).acc = x.acc ∧
        u.ctx t o.ctx = (s.ctx t o.ctx).signalOpt w.sig) ∧
    (∀ f : MmulF, x.burin.aborting = [] → x.burin.running = o :: rest → o.ins = .mmul t w f → f.fmt = 6 → f.acc = 2 → f.trans = false →
      x.opbuf.fmt = 6 → x.opbuf.k32 = 1 → 1 ≤ x.opbuf.n → (∀ i, (x.opbuf.elems.getD i 0).toNat < 256) →
      arg 2 / 65536 % 65536 = 1 → arg 2 % 16384 + x.opbuf.n ≤ 16384 →
      x.badWord (x.partBase o.ctx + arg 0 / 128 * 128) 128 = none →
      let first := arg 2 % 16384
      let stat (j k : Nat) : Int := ((x.opbuf.elems.getD (32 * j + k) 0).extractLsb' 0 8).toInt
      let sum (j : Nat) : Int := ((List.range 32).map fun k => (byte (at0 32 + k)).toInt * stat j k).sum
      ∃ u, exec (.engineInstructionFinish t 1) s = .next u ∧
        (∀ j, j < x.opbuf.n → f.zero = true → (u.tile t).accCell (first + j) = .i32 (.ofInt 32 (sum j))) ∧
        (∀ j v, j < x.opbuf.n → f.zero = false → x.accCell (first + j) = .i32 v →
          (u.tile t).accCell (first + j) = .i32 (.ofInt 32 (v.toInt + sum j))) ∧
        (∀ i, i < first ∨ first + x.opbuf.n ≤ i → (u.tile t).accCell i = x.accCell i) ∧ (u.tile t).sp = x.sp ∧
        (u.tile t).opbuf = x.opbuf ∧ u.ctx t o.ctx = (s.ctx t o.ctx).signalOpt w.sig) ∧
    (∀ f : StipF, x.stipple.aborting = [] → x.stipple.running = o :: rest → o.ins = .rraw32 t w f → o.tn6 = true → f.stg = false →
      let n := arg 1 % 2 ^ 32
      let state := (s.ctx t o.ctx).stpTn6
      1 ≤ n → ∃ u, exec (.engineInstructionFinish t 3) s = .next u ∧
        (∀ i, i < n → ∀ j, j < 4 → SMap.get 0 (u.tile t).sp (at0 128 + 4 * i + j) = (Nat.repeat tn6Step (i + 1) state).extractLsb' (32 + 8 * j) 8) ∧
        (∀ p, 4 * n ≤ p → p < lines (4 * n) → SMap.get 0 (u.tile t).sp (at0 128 + p) = 0) ∧
        (∀ p, p < at0 128 ∨ at0 128 + lines (4 * n) ≤ p → SMap.get 0 (u.tile t).sp p = byte p) ∧
        u.ctx t o.ctx = { s.ctx t o.ctx with stpTn6 := Nat.repeat tn6Step n state }.signalOpt w.sig ∧ (u.tile t).vregs = x.vregs)

/-! ### The instruction buffer, the scrubber and the error counters (R50–R52, R102) -/

/-- An instruction whose line is absent waits, and its line's fill starts; with the first instruction fetched from a line, the fill of
the next sequential line starts if that is absent. A fill that is under way brings its line into the instruction buffer: each of its words
is fetched from the buffer as the scratchpad held it at the fill; no other fill ends. A scrub step moves to the next line, repairs the
single-bit errors of the line it read, and changes no byte. A clear of an error counter clears it and no other (R50, R51, R102). -/
def Obligations.InstructionFillsScrubsAndCounters : Prop :=
  ∀ (s : State) (t : TileId) (c : Bool),
    let x := s.tile t
    (∀ line k : Nat, s.tileRuns t = true → x.active = some c → 128 * line + 128 ≤ x.partSize c → k < 16 →
      let n := x.phys c (128 * line) / 128
      (x.fills.contains (c, n) = true → ∃ u, exec (.instructionFill t line) s = .next u ∧
        (u.tile t).fetchWord c (128 * line + 8 * k) =
          BitVec.ofNat 64 (leNat (memRead x.sp (x.partBase c + 128 * line + 8 * k) 8)) ∧
        (u.tile t).lineUe c (128 * line + 8 * k) = x.badWord (x.partBase c + 128 * line) 128 ∧
        OnlyTileCounting s u t { x with ib := (u.tile t).ib, fills := x.fills.filter fun f => f ≠ (c, n) }) ∧
      (x.fills.contains (c, n) = false → exec (.instructionFill t line) s = .next s)) ∧
    (let y := s.ctx t c
     let n := x.phys c y.pc.toNat / 128
     (s.tileRuns t = true → x.active = some c → y.halted = false → y.gate = .none → y.pc.toNat < x.partSize c →
        x.ibLine c y.pc.toNat = none → ∃ u, exec (.nop t) s = .next u ∧
          OnlyTile s u t { x with fills := (u.tile t).fills } ∧ (c, n) ∈ (u.tile t).fills ∧ x.fills <+: (u.tile t).fills) ∧
     (Ready s t c → x.ibAt ≠ some (c, n) → (∀ l ∈ x.ib, ¬ (l.ctx = c ∧ l.line = n + 1)) →
        128 * (n + 2) ≤ x.partBase c + x.partSize c → ∃ u, exec (.nop t) s = .next u ∧ (c, n + 1) ∈ (u.tile t).fills ∧
          (u.tile t).ibAt = some (c, n) ∧ (u.ctx t c).pc = y.pc + 8)) ∧
    (s.tileRuns t = true → (s.cluster (clusterOf t)).scrubEn = true →
      ∃ u, exec (.scrubStep t) s = .next u ∧
        OnlyTileCounting s u t { x with scrubLine := (x.scrubLine + 1) % 16384, spErr := (u.tile t).spErr } ∧
        ∀ w, (u.tile t).wordErr w = if w / 16 = x.scrubLine ∧ x.wordErr w = .single then .ok else x.wordErr w) ∧
    (∀ g k p : Nat, ∃ u, exec (.spCeClear g k p) s = .next u ∧ u = { s with clusters := u.clusters } ∧
      (∀ q, SMap.get 0 (u.cluster (16 * g + k)).spCe q = if q = p then 0 else SMap.get 0 (s.cluster (16 * g + k)).spCe q) ∧
      ∀ i, i ≠ 16 * g + k → u.cluster i = s.cluster i)

/-! ### Barriers and the compiled exchange (R230–R232, R244–R248, R268, R275, R283) -/

/-- A SYNC's arrival is counted at its zone's root where it agrees with the first arrival and asks for no external sync: the
context goes to the barrier with its program counter past the SYNC, and when it is the last of its zone the barrier is released and
the exchange runs. An arrival that disagrees is the sync-zone mismatch fault, and an EXT arrival waits for the context's earlier remote
writes (R244, R245, R246, R249, R263). -/
def Obligations.SyncArrivals : Prop :=
  ∀ (s : State) (t : TileId) (c : Bool) (f : SyncFields), s.tileRuns t = true → (s.tile t).active = some c →
    (s.ctx t c).halted = false → (s.ctx t c).gate = .arrive f →
    let y := s.ctx t c
    let zn := s.zone y.zone
    (f.ext = false → zn.first = none ∨ zn.first = some f → ∃ u, exec (.syncArrival t) s = .next u ∧
      (u.ctx t c).gate = .barrier ∧ (u.ctx t c).pc = y.pc + 8 ∧ (u.ctx t c).regs = y.regs ∧ (u.ctx t c).phase = .active ∧
      (u.zone y.zone).first = some f ∧ (u.zone y.zone).arrived = zn.arrived ++ [t] ∧
      (u.zone y.zone).lz = max zn.lz ((s.tile t).xchLen c) ∧
      (zn.bar = .collecting → zn.aborted = false → s.releaseHeld y.zone = false →
        (∀ m ∈ s.members y.zone, m.1 = t ∨ m.1 ∈ zn.arrived ∨ (s.ctx m.1 m.2).phase = .done ∨ (s.ctx m.1 m.2).phase = .faulted) →
        (u.zone y.zone).bar = .exchanging) ∧
      (zn.bar = .collecting → (∃ m ∈ s.members y.zone, m.1 ≠ t ∧ m.1 ∉ zn.arrived ∧ (s.ctx m.1 m.2).phase ≠ .done ∧
        (s.ctx m.1 m.2).phase ≠ .faulted) → (u.zone y.zone).bar = .collecting)) ∧
    (∀ g, f.ext = false → zn.bar ≠ .exchanging → zn.first = some g → g ≠ f → ∃ u, exec (.syncArrival t) s = .next u ∧
      (u.ctx t c).phase = .faulted ∧ (u.zone y.zone).aborted = true ∧
      (s.log.errs.length < 7168 → ∃ r ∈ u.log.errs, r.code = 0x0107 ∧ r.cls = 0)) ∧
    (f.ext = true → y.stream ≠ [] → exec (.syncArrival t) s = .next s)

/-- A send whose turn it is and whose bytes lie in the partition, with no receive's write still to come, puts its 32 bytes on the
lane's track instance of each receiver, at its cycle plus the lane's latency, and its engine moves to the next word; no scratchpad byte
changes. A receive whose turn it is writes the word of its lane and cycle where one is there for it and nothing collided, and keeps
what it wrote over at hand, which sends of the cycles before the write still read; else it is a miss or collision fault of its context
and suppressed: it writes nothing and counts for no order. After a word the engine's buffer only loses it and gains fetched ones (R231,
R232, R233, R268, R272, R275, R283, R284). -/
def Obligations.ExchangeWordsMove : Prop :=
  ∀ (s : State) (t : TileId) (r : XchRun), (s.tile t).xch = some r →
    let x := s.tile t
    let z := (x.ctx r.ctx).zone
    (∀ cycle lane addr dests, s.xWord t r = .send cycle lane addr dests → s.xTurn t z (s.xWord t r) = true →
      addr + 32 ≤ x.partSize r.ctx → x.badWord (x.partBase r.ctx + addr) 32 = none → r.undo = [] →
      ∃ u q, exec (.exchangeSend t) s = .next u ∧ (u.tile t).xch = some q ∧ r.buf.drop 1 <+: q.buf ∧ r.lines ≤ q.lines ∧
        q = { r with idx := r.idx + 1, last := some cycle, lastSend := some cycle, buf := q.buf, lines := q.lines } ∧
        (∀ o, (u.tile o).sp = (s.tile o).sp ∧ (u.ctx o false) = (s.ctx o false) ∧ (u.ctx o true) = (s.ctx o true)) ∧
        (∀ d ∈ dests, ∃ v ∈ u.tracks, v.zone = z ∧ v.inst = laneInst lane d ∧ v.lane = lane ∧
          v.cycle = cycle + laneLatency lane (regionOf t) (regionOf d)) ∧
        (∀ d ∈ dests, (∀ v ∈ s.tracks, ¬ (v.zone = z ∧ v.inst = laneInst lane d ∧ v.lane = lane ∧
            v.cycle = cycle + laneLatency lane (regionOf t) (regionOf d))) →
          ∃ v ∈ u.tracks, v.inst = laneInst lane d ∧ v.rset = dests ∧ v.collide = false ∧
            v.data = BitVec.ofNat 256 (leNat (memRead x.sp (x.partBase r.ctx + addr) 32)))) ∧
    (∀ cycle lane addr, s.xWord t r = .recv cycle lane addr → s.xTurn t z (s.xWord t r) = true →
      addr + 32 ≤ x.partSize r.ctx →
      let here (v : TrackWord) : Bool :=
        decide (v.zone = z) && decide (v.inst = laneInst lane t) && decide (v.lane = lane) && decide (v.cycle = cycle)
      let taken (q : XchRun) : Prop :=
        q = { r with idx := r.idx + 1, last := some cycle, lastRecv := some cycle, buf := q.buf, lines := q.lines, undo := q.undo }
      let passedOver (q : XchRun) : Prop := q = { r with idx := r.idx + 1, buf := q.buf, lines := q.lines }
      (∀ v, s.tracks.find? here = some v → v.collide = false → t ∈ v.rset → ∃ u q e, exec (.exchangeReceive t) s = .next u ∧
        (u.tile t).xch = some q ∧ taken q ∧ r.buf.drop 1 <+: q.buf ∧
        q.undo.head? = some (cycle, addr, BitVec.ofNat 256 (leNat (memRead x.sp (x.partBase r.ctx + addr) 32)), e) ∧
        (u.ctx t r.ctx).xfault = (x.ctx r.ctx).xfault ∧
        (u.tile t).sp = memWrite x.sp (x.partBase r.ctx + addr) (leBytes 32 v.data.toNat)) ∧
      (∀ v, s.tracks.find? here = some v → v.collide = true → ∃ u q f, exec (.exchangeReceive t) s = .next u ∧
        (u.tile t).xch = some q ∧ passedOver q ∧ (u.tile t).sp = x.sp ∧ (u.ctx t r.ctx).xfault = some f ∧
        ((x.ctx r.ctx).xfault = none → f.code = 0x0103 ∧ f.cycle = cycle ∧ f.lane = lane)) ∧
      (s.tracks.find? here = none → ∃ u q f, exec (.exchangeReceive t) s = .next u ∧
        (u.tile t).xch = some q ∧ passedOver q ∧ (u.tile t).sp = x.sp ∧ (u.ctx t r.ctx).xfault = some f ∧
        ((x.ctx r.ctx).xfault = none → f.code = 0x0104 ∧ f.cycle = cycle ∧ f.lane = lane)))

/-- When every arrived tile's list has ended, the exchange of a zone ends at once for its members. In a zone that stands alone,
with no request latched and no fault recorded, each arrived member goes on: its gate opens, T_SYNC_STAT records the decision CONTINUE,
L and the phase, the superstep is counted, and the zone collects arrivals again. Before that the decision changes nothing (R247,
R248). -/
def Obligations.EndDecisionContinuesTheZone : Prop :=
  ∀ (s : State) (z : BitVec 3) (f : SyncFields),
    let zn := s.zone z
    (s.exchangeOver z = false → exec (.endDecision z) s = .next s) ∧
    (s.clocksRun = true → s.exchangeOver z = true → zn.first = some f → f.ext = false → zn.role = 0 → zn.aborted = false → zn.started = true →
      zn.reqs = [] → zn.arrived.Nodup →
      (∀ t ∈ zn.arrived, ∀ c, (s.ctx t c).xfault = none ∧ (s.ctx t c).xue = none ∧ (s.ctx t c).stopPend = none ∧ (s.ctx t c).haltPend = false ∧
        (s.ctx t c).resetPend = false ∧ ((s.ctx t c).phase = .active → (s.tile t).active = some c)) →
      ∃ u, exec (.endDecision z) s = .next u ∧ (u.zone z).bar = .collecting ∧ (u.zone z).first = none ∧ (u.zone z).arrived = [] ∧
        (∀ v ∈ u.tracks, v.zone ≠ z) ∧
        ∀ t ∈ zn.arrived, ∀ c, (s.tile t).active = some c → (s.ctx t c).zone = z → (s.ctx t c).gate = .barrier →
          (u.ctx t c).gate = Gate.none ∧ (u.ctx t c).phase = .active ∧ (u.ctx t c).pc = (s.ctx t c).pc ∧
          (u.ctx t c).regs = (s.ctx t c).regs ∧ (u.ctx t c).supersteps = (s.ctx t c).supersteps + 1 ∧
          (u.ctx t c).lastEnd = 0 ∧ (u.ctx t c).lastLz = BitVec.ofNat 21 zn.lz ∧ (u.ctx t c).lastPhase = f.phase ∧
          (u.tile t).xch = none)

/-- An eviction's save that is ready, with no message landing in the context's rings, writes the context to the area and the context is
EVICTED, with nothing of its streams left on the tile; the area holds its state and its partition. Until then nothing changes (R260,
R300). -/
def Obligations.EvictionSavesTheContext : Prop :=
  ∀ (s : State) (t : TileId) (c : Bool),
    let y := s.ctx t c
    (y.saveReady = false ∨ (∃ l ∈ s.post.landing, l.into t c = true) → exec (.evictSaveDone t c) s = .next s) ∧
    (y.saveReady = true → (∀ l ∈ s.post.landing, l.into t c = false) → s.rangeAsleep (s.globalAddr (s.zone y.zone).evictArea) (s.saveNeed y.zone) = [] →
      ∃ u, exec (.evictSaveDone t c) s = .next u ∧ (u.ctx t c).phase = .evicted ∧ (u.ctx t c).saving = false ∧
        (u.ctx t c).stream = [] ∧ (u.ctx t c).regs = y.regs ∧
        ∃ a ∈ u.host.saves, a.addr = (s.zone y.zone).evictArea ∧ ∃ i ∈ a.items, i.tile = t ∧ i.fromB = c ∧ i.ctx = y ∧
          ∀ p, p < (s.tile t).partSize c → SMap.get 0 i.sp p = SMap.get 0 (s.tile t).sp ((s.tile t).partBase c + p))

/-! ### Clocks, stewards and crossings (R27, R28, R41, R250, R251, R278–R280, R283) -/

/-- The stretches of the clocks are in force from their trips to their ends, a compute stretch only outside every exchange and a
package stretch only inside one; the loss of the reference stops the tile clocks and fences the device; a steward's heartbeats are
noted, and three missed ones lose it, with a record; each changes nothing else of the device's registers (R27, R28, R41, R250, R251,
R460). -/
def Obligations.ClockAndStewardEvents : Prop :=
  ∀ (s : State) (g : Nat), g < 16 →
    (s.anyExchange = false → ∃ u, exec (.computeDroopTrip g) s = .next u ∧ u.region g = { s.region g with droop := true } ∧
      u = { s with regions := u.regions } ∧ ∀ o, o ≠ g → u.region o = s.region o) ∧
    (s.anyExchange = true → exec (.computeDroopTrip g) s = .next s) ∧
    (∃ u, exec (.computeDroopEnd g) s = .next u ∧ u.region g = { s.region g with droop := false } ∧
      u = { s with regions := u.regions } ∧ ∀ o, o ≠ g → u.region o = s.region o) ∧
    (s.anyExchange = true → exec .packageDroopTrip s = .next { s with power := { s.power with pkgDroop := true } }) ∧
    (s.anyExchange = false → exec .packageDroopTrip s = .next s) ∧
    exec .packageDroopEnd s = .next { s with power := { s.power with pkgDroop := false } } ∧
    (∃ u, exec .refclkLoss s = .next u ∧ u.log.fenced = true ∧ u.clocksRun = false ∧ (u.region g).refLock = false ∧
      (∀ t, u.tileRuns t = false) ∧ (s.log.errs.length < 7168 → ∃ r ∈ u.log.errs, r.code = 0x0402 ∧ r.cls = 1)) ∧
    (s.domainOn (144 + g) = true → ∃ u, exec (.stewardHeartbeat g) s = .next u ∧
      u.region g = { s.region g with stewardOk := true } ∧ u = { s with regions := u.regions }) ∧
    (s.domainOn (144 + g) = true → (s.region g).stewardOk = true → ∃ u, exec (.heartbeatTimeout g) s = .next u ∧
      (u.region g).stewardOk = false ∧ (s.log.errs.length < 7168 → ∃ r ∈ u.log.errs, r.code = 0x0308 ∧ r.unit = g)) ∧
    ((s.region g).stewardOk = false → exec (.heartbeatTimeout g) s = .next s)

/-- A crossing's drift beyond a quarter of an exchange cycle asks for re-centring, and one beyond 0.375 is a slip: it poisons what the
crossing carries, words in flight included, until it is calibrated; the crossing is no longer valid, the region counts it, and XCAL_SLIP
waits for delivery. The steward re-centres a crossing that asks for it only while neither region is in an exchange, holding releases
meanwhile, and ends with the crossing centred, and valid where the marker confirms a depth of 1 to 7; otherwise it has no calibration,
which XCAL_INVALID records. XCAL_RECENTER asks for every inbound crossing of a region, and a clear of XMON clears its count (R278–R280,
R283). -/
def Obligations.CrossingsAreRecentred : Prop :=
  ∀ (s : State) (src g : Nat) (w : BitVec 6) (v : Word32), src < 16 → g < 16 → src ≠ g →
    let x := (s.region g).crossing src
    let others (u : State) : Prop :=
      ∀ a b, (a ≠ src ∨ b ≠ g) → (u.region b).crossing a = (s.region b).crossing a
    (∀ i ∈ [Instr.crossingDrift src g w, .crossingSlip src g w],
      (-24 ≤ w.toInt ∧ w.toInt ≤ 24 → ∃ u, exec i s = .next u ∧ others u ∧ u = { s with regions := u.regions } ∧
        (u.region g).crossing src = { x with wander := w, recalPend := x.recalPend || decide (16 < w.toInt ∨ w.toInt < -16) }) ∧
      (24 < w.toInt ∨ w.toInt < -24 → x.slipped = false → ∃ u, exec i s = .next u ∧ others u ∧
        (u.region g).crossing src = { x with wander := w, slipped := true, valid := false, recalPend := true } ∧
        (u.region g).slippedSticky = true ∧ (u.region g).xcalValid = false ∧ (u.region src).xcalValid = false ∧
        (u.region g).slipCount = satInc (s.region g).slipCount ∧ (∃ r ∈ u.log.staged, r.code = 0x0305 ∧ r.unit = g) ∧
        ∀ v ∈ s.tracks, v.src = src → (∃ t ∈ v.rset, regionOf t = g) → { v with poison := true } ∈ u.tracks)) ∧
    (∀ d k, x.busy = false → x.recalPend = true → s.regionExchanging src = false → s.regionExchanging g = false →
      ∃ u, exec (.crossingRecenter src g d k) s = .next u ∧ others u ∧ (u.region g).crossing src = { x with busy := true } ∧
        u.recentring g = true ∧ u.recentring src = true) ∧
    (∀ d k, x.busy = false → x.recalPend = false ∨ s.regionExchanging src = true ∨ s.regionExchanging g = true →
      exec (.crossingRecenter src g d k) s = .next s) ∧
    (∀ (d : BitVec 4) (k : Bool), x.busy = true → ∃ u, exec (.crossingRecenter src g d k) s = .next u ∧ others u ∧
      (u.region g).crossing src =
        { x with busy := false, recalPend := false, slipped := false, valid := k && decide (1 ≤ d.toNat ∧ d.toNat ≤ 7), wander := 0,
                 depth := d.extractLsb' 0 3 } ∧
      (k = false ∨ d = 0 ∨ 7 < d.toNat → (u.region g).xcalValid = false ∧
        (s.log.errs.length < 7168 → ∃ r ∈ u.log.errs, r.code = 0x0306 ∧ r.unit = g))) ∧
    (v.getLsbD 0 = true → ∃ u, exec (.xcalRecenterRequest g v) s = .next u ∧
      ((u.region g).crossing src) = { x with recalPend := true } ∧ u = { s with regions := u.regions }) ∧
    (∃ u, exec (.xmonClear g v) s = .next u ∧ u = { s with regions := u.regions } ∧
      u.region g = { s.region g with xmon := if v.getLsbD 31 then 0 else (s.region g).xmon })

/-! ### Post messages (R288–R298) -/

/-- A send at the head of a post queue, to a tile of this device, takes its count and the context's next sequence number, leaves with
its destination, tag and the bytes at its source address, and finishes with its signal; a source outside the partition is the partition
violation, and a wait on a counter that has no count for it, those of higher engines' heads apart, changes nothing (R57, R59, R72, R234,
R288, R289, R290). -/
def Obligations.PostSendsLeave : Prop :=
  ∀ (s : State) (t : TileId) (c : Bool) (o : EngOp) (rest : List EngOp) (w : WaitSig) (f : PsendF), s.tileRuns t = true →
    (s.ctx t c).postQ = o :: rest → o.ins = .psend t w f →
    let x := s.tile t
    let y := s.ctx t c
    let dst := o.regs.getD 0 0
    let a := (o.regs.getD 1 0).toNat / 32 * 32
    let n := 32 * f.len.toNat
    let may := ∀ k, w.wait = some k → x.waitersAbove c 6 k < (y.sigOf k).toNat
    (¬ may → exec (.postSendAccept t c) s = .next s) ∧
    (may → s.inExchange t c = false → n ≠ 0 → x.partSize c < a + n →
      ∃ u, exec (.postSendAccept t c) s = .next u ∧ FaultStops s u t c 0x0102) ∧
    (may → s.isOwn (dst.extractLsb' 12 15) = true → n = 0 ∨ a + n ≤ x.partSize c → x.badWord (x.partBase c + a) n = none →
      s.validTile (dst.extractLsb' 0 12) = true →
      ∃ u e m, exec (.postSendAccept t c) s = .next u ∧ u.post.msgs = s.post.msgs ++ [e] ∧ e.msg = m ∧ e.txid = none ∧
        e.path = localPath t c (some m.dest) ∧ m.dest = dst.extractLsb' 0 12 ∧ m.destCtx = dst.getLsbD 27 ∧ m.src = t ∧ m.srcCtx = c ∧ m.seq = y.postSeq ∧
        m.len = f.len ∧ m.tag = (if f.tagr = true then dst.extractLsb' 32 16 else f.tag) ∧
        m.payload = memRead x.sp (x.partBase c + a) n ∧ m.poisoned = false ∧ m.cut = none ∧
        (u.ctx t c).postQ = rest ∧ (u.ctx t c).postSeq = y.postSeq + 1 ∧ (u.ctx t c).regs = y.regs ∧
        (∀ k, (u.ctx t c).sigOf k = ((y.takeOpt w.wait).signalOpt w.sig).sigOf k) ∧ (u.tile t).sp = x.sp)

/-- The next message of a tile's post engine, once every arbiter has granted it, with no other landing there: one that its ring takes
lands at the HEAD rounded up to 64 bytes, its header and payload in order and wrapping at the region's end; the ring's descriptor moves
on as it begins, count and write pointer as its last unit has landed. One that has not come is not decided. A ring that is disabled, or has no
room, refuses it, and the refusal with its reason goes back to the sender's NACK ring, where its record lands in the same way, in the order
of the sends. With no room there it is counted and discarded (R290, R291, R292, R294, R298, R301). -/
def Obligations.PostMessagesLand : Prop :=
  ∀ (s : State) (m : PostMsg) (e : NackMsg),
    let entry (k c : Nat) (b : Bool) (t : TileId) (u : State) (l : List Byte) : Prop :=
      let d := (s.ctx t b).cr k
      ∀ i, i < c → SMap.get 0 (u.tile t).sp
        ((s.tile t).partBase b + (d.base.toNat * 128 + (ceilDiv d.head 64 * 64 % d.bytes + i) % d.bytes)) = l.getD i 0
    let moved (d : CircReg) (n : Nat) : CircReg :=
      let p := ceilDiv d.head 64 * 64 % d.bytes
      { d with head := (p + n) % d.bytes, full := decide (d.occ + ((p + d.bytes - d.head) % d.bytes + n) = d.bytes) }
    let next := s.post.msgs.find? fun p => decide (p.msg.dest = m.dest) && s.isOwn p.msg.destDev && s.postReached p
    ((∀ l ∈ s.post.landing, l.msg.msg.dest ≠ m.dest) → next.map (·.msg) ≠ some m →
      exec (.postMessageArrive m none) s = .next s) ∧
    (s.validTile m.dest = true → s.domainOn (domainOf m.dest) = true → s.domainOn (144 + regionOf m.dest) = true →
      s.isOwn m.srcDev = true → (s.ctx m.dest m.destCtx).postEn = false →
      (∀ l ∈ s.post.landing, l.msg.msg.dest ≠ m.dest) → next.map (·.msg) = some m →
      let k := (m.tag.extractLsb' 13 3).toNat
      let y := s.ctx m.dest m.destCtx
      let d := y.cr (8 + k)
      let n := 64 * ceilDiv (16 + 32 * m.len.toNat) 64
      (d.en = true → (y.ring k).parked = false → m.poisoned = false → m.cut = none → d.head < d.bytes → d.tail < d.bytes →
        (ceilDiv d.head 64 * 64 % d.bytes + d.bytes - d.head) % d.bytes + n ≤ d.bytes - d.occ →
        (16 + 32 * m.len.toNat > 64 → ∃ u, exec (.postMessageArrive m (some 1)) s = .next u ∧
          (u.ctx m.dest m.destCtx).cr (8 + k) = moved d n ∧ (u.ctx m.dest m.destCtx).ring k = y.ring k ∧
          ∃ l ∈ u.post.landing, l.msg.msg = m ∧ 0 < l.done ∧ l.done < 16 + 32 * m.len.toNat) ∧
        ∃ u, exec (.postMessageArrive m none) s = .next u ∧
          entry (8 + k) (16 + 32 * m.len.toNat) m.destCtx m.dest u (msgHeader m false ++ msgBytes m) ∧
          (u.ctx m.dest m.destCtx).cr (8 + k) = moved d n ∧
          (u.ctx m.dest m.destCtx).ring k = { y.ring k with count := (y.ring k).count + 1, wptr := (moved d n).head } ∧
          (u.ctx m.dest m.destCtx).regs = y.regs ∧ (u.post.nacks = s.post.nacks)) ∧
      (d.en = false → m.cut = none → ∃ u r, exec (.postMessageArrive m none) s = .next u ∧ u.post.nacks = s.post.nacks ++ [r] ∧
        r.src = m.src ∧ r.srcCtx = m.srcCtx ∧ r.tag = m.tag ∧ r.seq = m.seq ∧
        r.reason = (if (y.ring k).resetSeen = true then 3 else 2) ∧ (u.tile m.dest).sp = (s.tile m.dest).sp ∧
        u.ctx m.dest m.destCtx = y) ∧
      (d.en = true → ((y.ring k).parked = true ∨
          d.bytes - d.occ < (ceilDiv d.head 64 * 64 % d.bytes + d.bytes - d.head) % d.bytes + n) → m.cut = none →
        ∃ u r, exec (.postMessageArrive m none) s = .next u ∧ u.post.nacks = s.post.nacks ++ [r] ∧ r.reason = 1 ∧ r.seq = m.seq ∧
          (u.ctx m.dest m.destCtx).cr (8 + k) = d ∧ (u.tile m.dest).sp = (s.tile m.dest).sp ∧
          ((u.ctx m.dest m.destCtx).ring k).drops = satInc (y.ring k).drops)) ∧
    (s.validTile e.src = true → (s.ctx e.src e.srcCtx).postEn = false →
      s.post.nacks.find? (fun r => decide (r.src = e.src) && decide (r.srcCtx = e.srcCtx) &&
        decide (r.destWord.extractLsb' 0 27 = e.destWord.extractLsb' 0 27)) = some e →
      let y := s.ctx e.src e.srcCtx
      let d := y.cr 7
      let need := (ceilDiv d.head 64 * 64 % d.bytes + d.bytes - d.head) % d.bytes + 64
      (d.en = true → (y.ring 8).parked = false → d.head < d.bytes → need ≤ d.bytes - d.occ →
        ∃ u, exec (.nackRecordArrive e) s = .next u ∧ (u.ctx e.src e.srcCtx).cr 7 = moved d 64 ∧
          entry 7 16 e.srcCtx e.src u (leBytes 4 e.destWord.toNat ++ [e.reason.zeroExtend 8, 0] ++ leBytes 2 e.tag.toNat ++
            leBytes 4 e.seq.toNat ++ leBytes 4 s.time.toNat) ∧
          ((u.ctx e.src e.srcCtx).ring 8).count = (y.ring 8).count + 1) ∧
      (d.en = false ∨ (y.ring 8).parked = true ∨ d.bytes - d.occ < need →
        ∃ u, exec (.nackRecordArrive e) s = .next u ∧ ((u.ctx e.src e.srcCtx).ring 8).drops = satInc (y.ring 8).drops ∧
          (u.ctx e.src e.srcCtx).cr 7 = d ∧ (u.tile e.src).sp = (s.tile e.src).sp))

/-! ### Arbiters (R303–R311) -/

/-- At a grant boundary an instance with one lane, once the new requests are presented and its owner gone, gives the lane to one of the
inputs that request, and a message that wins goes on to its next arbiter: in a reserved grant, each N-th, to the oldest head request and among those to the highest number; otherwise to the highest number of all. The
grant counter counts modulo N; with no request nothing is granted, and a lane that is held stays held. The age stamp clock counts, a
head request of age 0x8000 or more takes its OLD bit, a commit is refused while one is in progress, names the lowest class that
fails its checks, and otherwise makes the shadows active, at once where no grant is held (the last the model's
reading, assumption 14); the management bus is held for the host while it asks and the debug port does not (R305–R308, R311). -/
def Obligations.ArbitersGrantAndCommit : Prop :=
  (∀ (s : State) (cls inst : Nat) (raised : List ArbReq) (dropped : List Nat), inst < arbInstances cls → cls ≠ 2 → cls ≠ 5 →
     ¬ (cls = 4 ∧ inst = 16) → (cls = 8 → s.busHeld = false) → s.arb.busy = false → (s.arbInst cls inst).adopt = false →
     let v := s.each raised fun s r => s.raise cls inst r
     let old := v.arbInst cls inst
     let x : ArbInst := { old with owners := old.owners.filter fun o => !(dropped.contains o.1 && mayDrop o.2) }
     let n := (SMap.get 8 s.arb.nActive cls).toNat
     let num (r : ArbReq) : Nat := mapOf s.arb.mapActive cls r.input
     ∃ u, exec (.arbiterGrant cls inst raised dropped) s = .next u ∧
       u = { s with arb := { s.arb with insts := u.arb.insts }, post := { s.post with msgs := u.post.msgs, landing := u.post.landing } } ∧
       (∀ j, j ≠ inst → j < 4096 → u.arbInst cls j = s.arbInst cls j) ∧
       (x.owners ≠ [] → (∃ o ∈ x.owners, o.1 = 0) → u.arbInst cls inst = x) ∧
       (x.owners = [] → x.requesting = [] → u.arbInst cls inst = x) ∧
       (x.owners = [] → x.requesting ≠ [] → ∃ w ∈ x.requesting, (u.arbInst cls inst).owners = [(0, w)] ∧
         (u.arbInst cls inst).gcount = (x.gcount + 1) % max 1 n ∧
         (u.arbInst cls inst).reqs = eraseFirst (fun r => r = w) x.reqs ∧
         (∀ k e, w.item = some k → v.post.msgs.find? (fun p => decide (msgKey p.msg = k)) = some e →
           ∃ p ∈ u.post.msgs, p.msg = e.msg ∧ p.path = e.path.tail ∧ p.stamp = e.stamp) ∧
         (if x.gcount + 1 = n then ∀ r ∈ x.requesting, s.arb.age r < s.arb.age w ∨ (s.arb.age r = s.arb.age w ∧ num r ≤ num w)
          else ∀ r ∈ x.requesting, num r ≤ num w))) ∧
  (∀ (s : State) (cls inst : Nat) (r : ArbReq), r.cls = cls → r.inst = inst → r.input < arbInputs cls → 5 ≤ cls →
     ((s.raise cls inst r).arbInst cls inst).reqs = (s.arbInst cls inst).reqs ++
       [{ r with stamp := if firstRequest cls r.input then s.arb.ageNow else r.stamp, old := !firstRequest cls r.input && r.old,
                 item := none }]) ∧
  (∀ (s : State) (v : Word32) (cls inst input : Nat),
     exec .ageTick s = .next { s with arb := { s.arb with ageNow := s.arb.ageNow + 1 } } ∧
     (∃ u, exec (.ageOldMark cls inst input) s = .next u ∧ u = { s with arb := { s.arb with insts := u.arb.insts } } ∧
       (u.arbInst cls inst).owners = (s.arbInst cls inst).owners ∧
       (u.arbInst cls inst).reqs.length = (s.arbInst cls inst).reqs.length ∧
       ∀ r ∈ (s.arbInst cls inst).reqs, r.input = input → 0x8000 ≤ s.arb.age r →
         { r with old := true } ∈ (u.arbInst cls inst).reqs) ∧
     (v.getLsbD 0 = true → s.arb.busy = true → exec (.arbCommit v) s = .next { s with arb := { s.arb with refused := true } }) ∧
     (v.getLsbD 0 = true → s.arb.busy = false → ∀ k, k < 9 → s.arb.badShadow k = true → (∀ j, j < k → s.arb.badShadow j = false) →
       ∃ u, exec (.arbCommit v) s = .next u ∧ u.arb.bad = true ∧ u.arb.badClass.toNat = k ∧ u.arb.nActive = s.arb.nActive ∧
         u.arb.mapActive = s.arb.mapActive) ∧
     (v.getLsbD 0 = true → s.arb.busy = false → (∀ k, k < 9 → s.arb.badShadow k = false) →
       (∀ e ∈ s.arb.insts, e.2.owners = []) →
       ∃ u, exec (.arbCommit v) s = .next u ∧ u.arb.busy = false ∧ u.arb.nActive = s.arb.nShadow ∧
         u.arb.mapActive = s.arb.mapShadow ∧ u.arb.commits = s.arb.commits + 1 ∧ u.tiles = s.tiles) ∧
     (v.getLsbD 0 = false → exec (.arbCommit v) s = .next s) ∧
     (∃ u, exec (.arbMgmtHold v) s = .next u ∧ u.arb.hold = v.getLsbD 0 ∧ u.arb.granted = (v.getLsbD 0 && !s.dbg.tapHold) ∧
       u.arb.holdAbandoned = (s.arb.holdAbandoned && !v.getLsbD 2) ∧ u = { s with arb := u.arb }))

/-! ### Package memory (R312–R316, R335, R343–R345) -/

/-- A controller whose stack is on reads, writes and updates its granules: a write stores its bytes and no others, and leaves the
granule valid; an atomic replaces one aligned word by the operation's result; a read changes no byte, counts what the controller or the
stack's own code corrected, and turns an uncorrectable code into poison. A write of less than a granule, and an atomic, leave a poisoned granule poisoned, and the atomic then changes no byte; a
whole granule written clears it. A stack that is asleep is being woken (R313, R335, R344, R345, R390). -/
def Obligations.PackageMemoryAccesses : Prop :=
  ∀ (s : State) (a : Nat), a < s.capacity →
    let g := a / 64
    let mem (u : State) (p : Nat) : Byte := SMap.get 0 u.memory.bytes p
    let ready := s.stackReady (s.place (64 * g)).stack = .ready
    (ready → ∃ u, exec (.hbmRead a) s = .next u ∧ u.memory.bytes = s.memory.bytes ∧ u.tiles = s.tiles ∧
      u.granErr g = (if s.granErr g = .single then .single else if s.granErr g = .uncorrectable then .poisoned else s.granErr g) ∧
      (∀ h, h ≠ g → u.granErr h = s.granErr h) ∧
      (s.granErr g = .uncorrectable → ∃ r ∈ u.log.staged, r.code = 0x0502 ∧ r.unit = (s.place (64 * g)).stack) ∧
      (s.granErr g = .single ∨ s.granErr g = .onDie → (u.stack (s.place (64 * g)).stack).ce = satInc (s.stack (s.place (64 * g)).stack).ce)) ∧
    (ready → ∀ (off : Nat) (data : List Byte), off + data.length ≤ 64 → data ≠ [] →
      ∃ u, exec (.hbmWrite a off data false) s = .next u ∧ u.tiles = s.tiles ∧
        (∀ i, i < data.length → mem u (64 * g + off + i) = data.getD i 0) ∧
        (∀ p, (p < 64 * g + off ∨ 64 * g + off + data.length ≤ p) → mem u p = mem s p) ∧
        (∀ h, h ≠ g → u.granErr h = s.granErr h) ∧
        (data.length = 64 ∨ s.granErr g = .ok ∨ s.granErr g = .single ∨ s.granErr g = .onDie → u.granErr g = .ok) ∧
        (data.length < 64 → s.granErr g = .poisoned ∨ s.granErr g = .uncorrectable ∨ s.granErr g = .mismatch →
          u.granErr g = .poisoned)) ∧
    (ready → ∀ (off : Nat) (data : List Byte), off + data.length ≤ 64 → data ≠ [] →
      ∃ u, exec (.hbmWrite a off data true) s = .next u ∧ u.granErr g = .poisoned) ∧
    (ready → s.granErr g = .ok → ∀ (aop : BitVec 3) (x cmp : Word), aop ≠ 7 →
      let w := a / 8 * 8
      let old : Word := BitVec.ofNat 64 (leNat (memRead s.memory.bytes w 8))
      let new : Word := if aop = 0 then old + x else if aop = 1 then x else if aop = 2 then (if old = cmp then x else old)
        else if aop = 3 then .ofInt 64 (min old.toInt x.toInt) else if aop = 4 then .ofInt 64 (max old.toInt x.toInt)
        else if aop = 5 then .ofNat 64 (min old.toNat x.toNat) else .ofNat 64 (max old.toNat x.toNat)
      ∃ u, exec (.hbmAtomic a aop x cmp) s = .next u ∧ leNat (memRead u.memory.bytes w 8) = new.toNat ∧
        (∀ p, (p < w ∨ w + 8 ≤ p) → mem u p = mem s p) ∧ u.granErr g = .ok ∧ u.tiles = s.tiles) ∧
    (ready → s.granErr g = .poisoned → ∀ (aop : BitVec 3) (x cmp : Word),
      ∃ u, exec (.hbmAtomic a aop x cmp) s = .next u ∧ u.memory.bytes = s.memory.bytes ∧ u.granErr g = .poisoned) ∧
    (s.stackReady (s.place (64 * g)).stack = .waking →
      ∃ u, exec (.hbmRead a) s = .next u ∧ u.memory = s.memory ∧ hbmDomain (s.place (64 * g)).stack ∈ u.power.domPending)

/-- The controllers' other events: rows close, refresh doubles above 85 °C and closes the rows of the bank it refreshes, a clear of
MEM_CE clears one stack's count; the interleave changes only while no context is loaded and no host access runs, any write at another time is
refused, and its fill leaves memory zero; an access through the host window goes to the host where the window is enabled, a read counting as
in progress until its completion, and does nothing where it is not (R312, R314, R316). -/
def Obligations.MemoryControllerEvents : Prop :=
  ∀ (s : State) (m row : Nat) (v : Word32) (q : HostWinReq),
    (∃ u, exec (.hbmRowClose m row) s = .next u ∧ (∀ r, r ∈ (u.stack m).openRows ↔ r ∈ (s.stack m).openRows ∧ r ≠ row) ∧
      (∀ n, n ≠ m → u.stack n = s.stack n) ∧ u = { s with memory := { s.memory with stks := u.memory.stks } }) ∧
    (∀ rows : List Nat, (s.stack m).selfRefresh = false → ∃ u, exec (.hbmRefresh m rows) s = .next u ∧
      u.stack m = { s.stack m with refDouble := decide (85 < (s.stack m).temp.toNat), openRows := (u.stack m).openRows } ∧
      (∀ r, r ∈ (u.stack m).openRows ↔ r ∈ (s.stack m).openRows ∧ r ∉ rows) ∧ (∀ n, n ≠ m → u.stack n = s.stack n) ∧
      u = { s with memory := { s.memory with stks := u.memory.stks } }) ∧
    (v.getLsbD 31 = true → ∃ u, exec (.memCeClear m v) s = .next u ∧ u.stack m = { s.stack m with ce := 0 } ∧
      u = { s with memory := { s.memory with stks := u.memory.stks } }) ∧
    (v.getLsbD 30 = false → v.extractLsb' 0 2 ≠ s.memory.intlvMode → v.extractLsb' 0 2 ≠ 3 → s.memory.intlvBusy = false →
      s.anyLoaded = false → s.hostAccess = false → exec (.interleaveChange v) s =
        .next { s with memory := { s.memory with intlvMode := v.extractLsb' 0 2, intlvBusy := true } }) ∧
    (v.getLsbD 30 = false → v.extractLsb' 0 2 = s.memory.intlvMode → v.extractLsb' 0 2 ≠ 3 → s.memory.intlvBusy = false →
      s.anyLoaded = false → s.hostAccess = false → exec (.interleaveChange v) s = .next s) ∧
    (v.getLsbD 30 = false →
      v.extractLsb' 0 2 = 3 ∨ s.memory.intlvBusy = true ∨ s.anyLoaded = true ∨ s.hostAccess = true →
      exec (.interleaveChange v) s = .next { s with memory := { s.memory with intlvRefused := true } }) ∧
    (s.memory.intlvBusy = true → ∃ u, exec .interleaveFillDone s = .next u ∧ u.memory.intlvBusy = false ∧
      (∀ p, SMap.get 0 u.memory.bytes p = 0) ∧ (∀ g, u.granErr g = .ok) ∧ u = { s with memory := u.memory }) ∧
    (s.memory.hostWin = true → q.addr < 0x10000000000 → s.host.power = .d0 →
      (q.write = true → ∃ u, exec (.hostWindowRequest q) s = .next u ∧
        u.host.out = s.host.out ++ [.write q.addr (sliceBytes q.data 0 q.len) q.poison]) ∧
      (q.write = false → ∃ u, exec (.hostWindowRequest q) s = .next u ∧
        u.host.out = s.host.out ++ [.read s.memory.nextTx q.addr q.len] ∧ u.hostAccess = true)) ∧
    (s.memory.hostWin = false → exec (.hostWindowRequest q) s = .next s)

/-! ### Streams (R235, R236, R321–R333, R340) -/

/-- The stream engine accepts the next instruction of a context's queue in the lowest free slot and takes its count: an atomic, a
flag, a fence, a copy and a descriptor without a parameter block whose checks pass; a footprint outside the partition is the partition
violation. Nothing is accepted without a count, those of the post queue's head apart, or while the context is held (R55, R57, R59, R74,
R235, R321). -/
def Obligations.StreamEngineAccepts : Prop :=
  ∀ (s : State) (t : TileId) (c : Bool) (o : StreamOp),
    let x := s.tile t
    let y := s.ctx t c
    let may := y.streamHold = false ∧ y.saving = false ∧ 
      ∀ k, (engWaitSig o.op.ins).wait = some k → x.waitersAbove c 5 k < (y.sigOf k).toNat
    let begins (desc : BitVec 512) : Prop := ∃ u o', exec (.streamAccept t c) s = .next u ∧
      (u.ctx t c).streamAt y.freeSlot = some o' ∧ o' = { o with phase := .running, slot := y.freeSlot, desc := desc } ∧
      (∀ k, (u.ctx t c).sigOf k = (y.takeOpt (engWaitSig o.op.ins).wait).sigOf k) ∧
      (u.ctx t c).stream.length = y.stream.length ∧ (u.ctx t c).regs = y.regs ∧ (u.tile t).sp = x.sp
    y.nextQueued = some o → s.tileRuns t = true →
      (¬ may → exec (.streamAccept t c) s = .next s) ∧
      (may → y.stream.length ≤ 32 →
        (∀ t' w sc, o.op.ins = .fence t' w sc → begins o.desc) ∧
        (∀ t' w rv rx q r, o.op.ins = .sflag t' w rv rx q r → begins o.desc) ∧
        (∀ t' w f, o.op.ins = .samo t' w f → f.rr = 0 ∨ o.op.arg 3 / 8 * 8 + 8 ≤ x.partSize c → begins o.desc) ∧
        (∀ t' w f, o.op.ins = .samo t' w f → f.rr ≠ 0 → x.partSize c < o.op.arg 3 / 8 * 8 + 8 →
          s.inExchange t c = false →
          ∃ u, exec (.streamAccept t c) s = .next u ∧ (u.ctx t c).phase = .faulted ∧
            (s.log.errs.length < 7168 → ∃ r ∈ u.log.errs, r.code = 0x0102 ∧ r.cls = 0)) ∧
        (∀ d, o.copy = some d → (∃ t' w f, o.op.ins = .sget t' w f ∨ o.op.ins = .sput t' w f) → d.total ≠ 0 →
          x.copyBad c d = none → begins o.desc) ∧
        (∀ t' w ra, o.op.ins = .sdesc t' w ra → o.op.arg 0 / 64 * 64 + 64 ≤ x.partSize c →
          x.badWord (x.partBase c + o.op.arg 0 / 64 * 64) 64 = none →
          let dn := leNat (memRead x.sp (x.partBase c + o.op.arg 0 / 64 * 64) 64)
          descBad dn = false → x.copyBad c (descCopy dn 0) = none → (descCopy dn 0).param = false →
          begins (.ofNat 512 dn)))

/-- A translation walk of a flag's store, whose page permits it and lies in this device's package memory, writes the flag's 8
bytes there and no other byte, and its element is done. A translation fault suspends the operation and, where none is recorded yet,
fills the context's fault record and is logged: an address above 57 bits as NONCANON, a root table that is not enabled as NOROOT (R326,
R328, R329, R332, R333, R337). -/
def Obligations.TranslationWalks : Prop :=
  ∀ (s : State) (t : TileId) (c : Bool) (slot : Nat) (o : StreamOp) (t' : TileId) (w : WaitSig) (rv rx : RegNo) (q : Bool),
    s.tileRuns t = true → (s.ctx t c).streamAt slot = some o → o.phase = .running → o.op.ins = .sflag t' w rv rx q false →
    o.trans = 0 → o.next = 0 → o.pages = [] → o.ready = [] → o.batches = [] → o.failElem = none → slot < 32 →
    heldBack ((s.ctx t c).earlier slot) = false →
    let a := o.op.arg 0 / 8 * 8
    let tr := s.translate (regionOf t) (s.ctx t c).asid a true
    (∀ p r w', tr.2 = .page p r w' → p.va ≤ a → a + 8 ≤ p.va + p.size →
      let pa := p.pa + (a - p.va)
      let l := pa % 2 ^ 41
      pa % 8 = 0 → pa / 2 ^ 41 = s.fabric.devId.toNat → l < s.capacity → tr.1.granErr (l / 64) = .ok → s.memory.intlvBusy = false →
      tr.1.stackReady (tr.1.place (l / 64 * 64)).stack = .ready →
      ∃ u o', exec (.translationWalk t c slot) s = .next u ∧
        (∀ i, i < 8 → SMap.get 0 u.memory.bytes (l + i) = BitVec.ofNat 8 (o.op.arg 1 / 256 ^ i)) ∧
        (∀ k, (k < l ∨ l + 8 ≤ k) → SMap.get 0 u.memory.bytes k = SMap.get 0 s.memory.bytes k) ∧
        (u.ctx t c).streamAt slot = some o' ∧ o'.elementsDone = true ∧ o'.failElem = none ∧ o'.op = o.op ∧
        (u.tile t).sp = (s.tile t).sp ∧ (u.ctx t c).regs = (s.ctx t c).regs) ∧
    (∀ cause level index, tr.2 = .fault cause level index → cause < 8 → level < 16 → index < 512 →
      ∃ u o' f, exec (.translationWalk t c slot) s = .next u ∧ (u.ctx t c).streamAt slot = some o' ∧ o'.phase = .suspended f ∧
        f.cause.toNat = cause ∧ f.va.toNat = a ∧ f.write = true ∧ f.elem = 0 ∧ u.memory.bytes = s.memory.bytes ∧
        ((s.ctx t c).xlatInfo.getLsbD 63 = false → (u.ctx t c).xlatVa.toNat = a ∧ (u.ctx t c).xlatInfo.getLsbD 63 = true ∧
          ((u.ctx t c).xlatInfo.extractLsb' 33 3).toNat = cause ∧
          (s.log.errs.length < 7168 → ∃ r ∈ u.log.errs, r.code = 0x0109 ∧ r.unit = t.toNat ∧ r.ctx = c))) ∧
    (2 ^ 57 ≤ a → tr.2 = .fault 1 15 0) ∧
    (a < 2 ^ 57 → (s.region (regionOf t)).rootEn = false → ∃ index, tr.2 = .fault 2 15 index)

/-- An operation whose elements are done reaches its completion point: its record, where it has one, stands in the scratchpad, its
counter is signalled, and it leaves its queue. A global fence does so when nothing issued before it is left, and waits until
then (R322, R323, R340). -/
def Obligations.StreamOperationsComplete : Prop :=
  ∀ (s : State) (t : TileId) (c : Bool) (slot : Nat) (o : StreamOp), s.tileRuns t = true →
    (s.ctx t c).streamAt slot = some o →
    let x := s.tile t
    let y := s.ctx t c
    let finished (i : Instr) : Prop := ∃ u, exec i s = .next u ∧
      OnlyTile s u t (x.setCtx c { y.signalOpt (engWaitSig o.op.ins).sig with stream := eraseFirst (fun e => e = o) y.stream })
    (o.phase = .running → o.isFence = false → o.elementsDone = true → heldBack (y.earlier slot) = false → o.failElem = none →
      (∀ d, o.copy = some d → d.get = false ∨ d.crm = false) →
      (o.recordAt = none → finished (.streamComplete t c slot)) ∧
      (∀ a, o.recordAt = some a → ∃ u, exec (.streamComplete t c slot) s = .next u ∧
        (∀ i, i < 16 → SMap.get 0 (u.tile t).sp (x.partBase c + a + i) = o.recordBytes.getD i 0) ∧
        (∀ p, (p < x.partBase c + a ∨ x.partBase c + a + 16 ≤ p) → SMap.get 0 (u.tile t).sp p = SMap.get 0 x.sp p) ∧
        u.ctx t c = { y.signalOpt (engWaitSig o.op.ins).sig with stream := eraseFirst (fun e => e = o) y.stream })) ∧
    (o.phase = .running → o.isFence = false → o.elementsDone = false → exec (.streamComplete t c slot) s = .next s) ∧
    (∀ t' w, o.op.ins = .fence t' w 2 → o.recordAt = none → o.failElem = none →
      (y.earlier slot = [] → finished (.fenceOrderingPoint t c slot)) ∧
      (y.earlier slot ≠ [] → exec (.fenceOrderingPoint t c slot) s = .next s)) ∧
    (∀ t' w, o.op.ins = .fence t' w 0 → o.failElem = none →
      (∀ e ∈ y.earlier slot, e.phase ≠ .queued ∧ e.isFence = false ∧ e.elementsDone = true ∧ e.held = []) →
      finished (.fenceOrderingPoint t c slot))

/-- A started invalidation removes from a region's caches every entry that its mode names, and from the region's stream operations the
pages that such entries gave, and reads not DONE; it reads DONE again when every request of the region that such an entry had translated is
performed, and not before (R331). -/
def Obligations.TranslationInvalidation : Prop :=
  ∀ (s : State) (g : Nat) (v : Word32), g < 16 →
    let r := s.region g
    let va := (r.invVaHi.extractLsb' 0 25).toNat * 2 ^ 32 + (r.invVaLo.extractLsb' 16 16).toNat * 2 ^ 16
    let asid := v.extractLsb' 12 12
    (v.getLsbD 0 = true → r.invDone = true → ∃ u, exec (.xlatInvalidate g v) s = .next u ∧
      u = { s with regions := u.regions, tiles := u.tiles } ∧ (u.region g).invDone = false ∧
      (∀ t c, { u.ctx t c with stream := (s.ctx t c).stream } = s.ctx t c) ∧ (∀ o, o ≠ g → u.region o = s.region o) ∧
      (∀ t c, (u.ctx t c).stream = if regionOf t ≠ g then (s.ctx t c).stream
        else (s.ctx t c).stream.map fun o => o.invalidated fun e => !xlatKeep (v.extractLsb' 26 2).toNat asid va e) ∧
      ∀ e, e ∈ (u.region g).xlatCache ↔ e ∈ r.xlatCache ∧
        (v.extractLsb' 26 2 ≠ 0) ∧
        (v.extractLsb' 26 2 = 1 → e.1 ≠ asid ∨ pteGlobal e.2.2.2 = true) ∧
        (v.extractLsb' 26 2 = 2 → (e.1 ≠ asid ∧ pteGlobal e.2.2.2 = false) ∨ e.2.2.1 ≠ levelPrefix e.2.1 va) ∧
        (v.extractLsb' 26 2 = 3 → pteGlobal e.2.2.2 = false)) ∧
    (v.getLsbD 0 = false ∨ r.invDone = false → ∃ u, exec (.xlatInvalidate g v) s = .next u ∧
      (u.region g).xlatCache = r.xlatCache ∧ (u.region g).invDone = r.invDone) ∧
    (s.invQuiet g = true → ∃ u, exec (.xlatInvalidateDone g) s = .next u ∧ (u.region g).invDone = true ∧ u.tiles = s.tiles) ∧
    (s.invQuiet g = false → exec (.xlatInvalidateDone g) s = .next s)

/-! ### The fabric (R346–R370, R408) -/

/-- Every egress but e is as it was. -/
def OtherHalves (s u : State) (e : Nat) : Prop := ∀ o, o ≠ e → u.half o = s.half o

/-- A port's halves go from DETECT over autonegotiation, training, alignment and HELLO to ACTIVE: training takes up FAB_PORT_CFG as it
stands when it begins, sends the port's abilities, and keeps the lanes it found usable, HELLO is sent in an IDLE flit on entering its
state, and a HELLO received leads to ACTIVE, to DUPLICATE where the ids agree, to ISOLATED where one
is missing, and back to DETECT where no version is common. A bring-up state that lasts too long, and a retraining, pause before
DETECT; a port that is disabled holds its halves OFF. SPLIT takes effect where training begins, when the upper half-port starts at
DETECT or goes DOWN; no other event of one egress changes another's (R346, R349, R358, R364, R366, R367). -/
def Obligations.FabricLinksComeUp : Prop :=
  ∀ (s : State) (e : Nat), e < 64 →
    let h := s.half e
    let upper := (s.half (2 * (e / 2) + 1)).state
    let v1only := bits h.cfg.toNat 28 2 = 1
    let cfg := s.portCfg (e / 2)
    let goes (i : Instr) (x : Half) : Prop := ∃ u, exec i s = .next u ∧ u.half e = x ∧ OtherHalves s u e
    let trains (i : Instr) (x : Half) : Prop :=
      ∃ u, exec i s = .next u ∧ u.half e = { x with eq := (u.half e).eq } ∧ OtherHalves s u e
    (h.state = 1 → h.pausing = false → e % 2 = 0 ∨ s.portSplit (e / 2) = true → ∃ u, exec (.linkSignalDetect e) s = .next u ∧
      u.half e = { h with state := 2, cfg := cfg } ∧
      (s.clocksRun = true → e % 2 = 1 → u.fabric.wire = s.fabric.wire ++
        [.an e (decide (bits cfg.toNat 28 2 ≠ 1)) (cfg.getLsbD 30) (if bits cfg.toNat 28 2 = 1 then 1 else 3)]) ∧ (e % 2 = 1 → OtherHalves s u e) ∧ (∀ o, o / 2 ≠ e / 2 → u.half o = s.half o) ∧
      (e % 2 = 0 → (u.half (e + 1)).state = if s.portSplit (e / 2) = false then 0 else if upper = 0 then 1 else upper)) ∧
    (h.state = 1 → h.pausing = false → e % 2 = 1 → s.portSplit (e / 2) = false →
      ∃ u, exec (.linkSignalDetect e) s = .next u ∧ (u.half e).state = 0 ∧ OtherHalves s u e) ∧
    (h.pausing = true → exec (.linkSignalDetect e) s = .next s) ∧
    (∀ (peer200 : Bool) (vers : BitVec 2), h.state = 2 → goes (.autonegDone e peer200 vers)
      { h with state := 3, rate200 := peer200 && !v1only, version := if peer200 = true ∧ ¬ v1only ∧ vers.getLsbD 1 = true then 2 else 1 }) ∧
    (∀ lanes : BitVec 16, h.state = 3 →
      let low := lanes.extractLsb' 0 8 = 0xFF
      let high := lanes.extractLsb' 8 8 = 0xFF
      (upper = 0 → low ∧ high → trains (.linkTrainDone e lanes) { h with state := 4, width := 2 }) ∧
      (upper = 0 → ¬ (low ↔ high) → trains (.linkTrainDone e lanes) { h with state := 4, width := 1 }) ∧
      (upper ≠ 0 → (if e % 2 = 0 then low else high) → trains (.linkTrainDone e lanes) { h with state := 4, width := 1 }) ∧
      (¬ low → ¬ high → goes (.linkTrainDone e lanes) { h with state := 1, width := 0 })) ∧
    (h.state = 4 → ∃ u f, exec (.linkAlignDone e) s = .next u ∧
      u.half e = { h with state := 5, helloSent := true, txWords := (u.half e).txWords } ∧ OtherHalves s u e ∧
      (s.clocksRun = true → h.txWords ≠ 0 → u.fabric.wire = s.fabric.wire ++
        [.codeword e (wordLanes h.lanes 0 h.txWords.toNat (flitBytes f))]) ∧ f.idle = true ∧ f.lcm.extractLsb' 16 15 = s.fabric.devId ∧
      f.lcm.getLsbD 31 = s.fabric.devValid ∧ f.lcm.getLsbD 0 = true ∧ f.lcm.getLsbD 1 = !decide v1only) ∧
    (∀ m : BitVec 64, h.state = 5 →
      let common := m.getLsbD 0 = true ∨ (m.getLsbD 1 = true ∧ ¬ v1only)
      let peer := m.extractLsb' 16 15
      (¬ common → ∃ u, exec (.helloReceive e m) s = .next u ∧ (u.half e).state = 1 ∧ OtherHalves s u e) ∧
      (common → ∃ u, exec (.helloReceive e m) s = .next u ∧ OtherHalves s u e ∧ (u.half e).peerDev = peer ∧
        (u.half e).peerValid = m.getLsbD 31 ∧ (u.half e).state =
          if s.fabric.devValid = true ∧ m.getLsbD 31 = true then (if peer = s.fabric.devId then 8 else 6) else 7)) ∧
    (2 ≤ h.state ∧ h.state ≤ 5 → ∃ u, exec (.linkStateTimeout e) s = .next u ∧ (u.half e).state = 1 ∧ (u.half e).pausing = true ∧
      OtherHalves s u e) ∧
    (h.state < 2 ∨ 5 < h.state → exec (.linkStateTimeout e) s = .next s) ∧
    goes (.retrainPauseEnd e) { h with pausing := false } ∧
    (h.state = 6 → ∃ u, exec (.linkDown e) s = .next u ∧ (u.half e).state = 1 ∧ (u.half e).unacked = [] ∧ OtherHalves s u e ∧
      ∃ r ∈ u.log.staged, r.code = 0x0504 ∧ r.unit = e) ∧
    (∀ v : Word32, s.portEn (e / 2) = true → v.getLsbD 31 = false → v.getLsbD 23 = false →
      ∃ u, exec (.fabPortEnable (e / 2) v) s = .next u ∧ (u.half e).state = 0 ∧ u.portEn (e / 2) = false ∧
        ∀ o, o / 2 ≠ e / 2 → u.half o = s.half o) ∧
    (∀ v : Word32, s.portEn (e / 2) = true → v.getLsbD 31 = true → h.state ≠ 0 →
      ∃ u, exec (.fabPortRetrain (e / 2) v) s = .next u ∧ (u.half e).state = 1 ∧ (u.half e).pausing = true ∧
        ∀ o, o / 2 ≠ e / 2 → u.half o = s.half o)

/-- Over an ACTIVE link: a DATA flit with the awaited number, in a codeword that the FEC reads, is accepted with its credits and the
packets that end in it, and drops what it acknowledges; a codeword that cannot be corrected is refused with one NAK; the ACK, NAK and replay
timers send what is due, credits that are owed in a numbered DATA flit; a channel without credits for 1 ms retrains. A packet whose turn it is
leaves by its egress in a DATA flit with one hop more when that holds its credits, which it takes, and waits otherwise; what has
waited the egress hold is discarded, but for what a failover hold keeps. A packet at an ingress frees its slots; one whose header check
fails is counted and dropped; one for this device is delivered, a post message to the post plane; one for another device goes to the egress
stage as it came, unless its hops are used up, or it is a post message without a route, which is answered with BADDEST (R295, R347–R353, R355,
R360–R362, R364, R365). -/
def Obligations.FlitsAndPacketsMove : Prop :=
  ∀ (s : State) (e : Nat),
    let h := s.half e
    let counted (u : State) (k : Nat) : Prop :=
      SMap.get 0 u.fabric.counters (16 * e + k) = satInc (SMap.get 0 s.fabric.counters (16 * e + k))
    let sends (u : State) (f : Flit) : Prop := s.clocksRun = true → h.txWords ≠ 0 →
      u.fabric.wire = s.fabric.wire ++ [.codeword e (wordLanes h.lanes 0 h.txWords.toNat (flitBytes f))]
    let ackFlit (nak : Bool) : Flit :=
      { seq := 0, ack := h.rxNext - 1, idle := true, nak := nak, slots := [], credits := [], lcm := 0 }
    let dataFlit (l : List FlitSlot) : Flit :=
      { seq := h.txSeq, ack := h.rxNext - 1, idle := false, nak := false, slots := l, credits := h.owed, lcm := 0 }
    (s.egressActive e = true →
      (∀ (ls : List (List (BitVec 10))) (fixed : Bool) (b : List Byte) (p : SMap (List FlitSlot)) (l : List (List FlitSlot × Bool)),
        readWord h.lanes ls = .word fixed 0 b → flitCrcOk b = true → (readFlit b).idle = false → (readFlit b).nak = false →
        slotWalk (readFlit b).slots h.rxProg = some (p, l) → (readFlit b).seq = h.rxNext → h.rxSinceAck < 63 →
        ∃ u, exec (.flitReceive e ls) s = .next u ∧ OtherHalves s u e ∧ (u.half e).rxNext = h.rxNext + 1 ∧
          (u.half e).rxSinceAck = h.rxSinceAck + 1 ∧ (u.half e).rxProg = p ∧ (u.half e).nakWait = false ∧
          (∀ k, k < 8 → SMap.get 0 (u.half e).credits k = SMap.get 0 h.credits k + SMap.get 0 (readFlit b).credits k) ∧
          (∀ f, f ∈ (u.half e).unacked ↔ f ∈ h.unacked ∧ 32768 ≤ ((readFlit b).ack - f.flit.seq).toNat) ∧
          u.fabric.wire = s.fabric.wire ∧
          (h.version ≠ 1 → u.fabric.rxPkts = s.fabric.rxPkts ++ l.filterMap fun q => (readPacket q.1 q.2).map fun p =>
            { ingress := e, slots := q.1.length + (if q.2 then 1 else 0), pkt := p })) ∧
      (∀ ls, readWord h.lanes ls = .bad → ∃ u, exec (.flitReceive e ls) s = .next u ∧
        u.half e = { h with nakWait := true, txWords := (u.half e).txWords } ∧ OtherHalves s u e ∧ counted u 1 ∧
        (h.nakWait = true → u.fabric.wire = s.fabric.wire) ∧ (h.nakWait = false → sends u (ackFlit true))) ∧
      (0 < h.rxSinceAck → h.owed = [] → s.clocksRun = true → ∃ u, exec (.ackTimer e) s = .next u ∧
        u.half e = { h with rxSinceAck := 0, txWords := (u.half e).txWords } ∧ sends u (ackFlit false)) ∧
      (h.owed ≠ [] → h.unacked.length < 2048 → s.clocksRun = true → ∃ u, exec (.ackTimer e) s = .next u ∧
        u.half e = { h with rxSinceAck := 0, owed := [], txSeq := h.txSeq + 1, txWords := (u.half e).txWords,
                            unacked := h.unacked ++ [{ flit := dataFlit [], resent := 0 }] } ∧ sends u (dataFlit [])) ∧
      (h.nakWait = true → ∃ u, exec (.nakRepeat e) s = .next u ∧ u.half e = { h with txWords := (u.half e).txWords } ∧
        sends u (ackFlit true)) ∧
      (∀ f r, h.unacked = f :: r → f.resent < 7 → s.clocksRun = true → ∃ u, exec (.replayTimeout e) s = .next u ∧ counted u 3 ∧
        (u.half e).state = h.state ∧ (u.half e).unacked = h.unacked.map (fun q => { q with resent := q.resent + 1 }) ∧
        s.fabric.wire <+: u.fabric.wire ∧ s.fabric.wire.length + h.unacked.length ≤ u.fabric.wire.length ∧
        (r = [] → sends u f.flit)) ∧
      (∀ f r, h.unacked = f :: r → 7 ≤ f.resent → s.clocksRun = true →
        ∃ u, exec (.replayTimeout e) s = .next u ∧ (u.half e).state = 1) ∧
      (∀ (vc : BitVec 2) (cls : Bool), SMap.get 0 h.credits (2 * vc.toNat + (if cls then 1 else 0)) = 0 → s.waitsOn e vc.toNat cls = true →
        ∃ u, exec (.creditStall e vc cls) s = .next u ∧ (u.half e).state = 1 ∧ (u.half e).pausing = true ∧
          ∃ r ∈ u.log.staged, r.code = 0x0505 ∧ r.unit = e)) ∧
    (s.fabric.rxPkts.find? (fun r => decide (r.ingress = e)) = none → exec (.transportPacketIngress e) s = .next s) ∧
    (∀ r, s.fabric.rxPkts.find? (fun r => decide (r.ingress = e)) = some r →
      let p := r.pkt
      let k := 2 * vcOf p.type + (if p.cls then 1 else 0)
      let takes (u : State) : Prop := exec (.transportPacketIngress e) s = .next u ∧
        u.fabric.rxPkts = eraseFirst (fun q => q = r) s.fabric.rxPkts ∧
        SMap.get 0 (u.half e).owed k = SMap.get 0 h.owed k + r.slots ∧ u.memory = s.memory
      let mine := s.fabric.devValid = true ∧ p.dest = s.fabric.devId
      (p.hcrc ≠ hcrcOf p → ∃ u, takes u ∧ counted u 5 ∧ u.fabric.outq = s.fabric.outq ∧ u.post = s.post) ∧
      (p.hcrc = hcrcOf p → typeOk p = true → p.cut = none → p.data.length = 64 * p.len.toNat → p.pmask = 0 → p.slotPoison = 0 →
        p.checks = (granules p.len.toNat p.data).map crc32c → p.sr = false →
        (mine → p.type = 2 → s.validTile (postOfPkt p).dest = true → ∃ u q, takes u ∧ u.post.msgs = s.post.msgs ++ [q] ∧
          q.msg = postOfPkt p ∧ q.txid = some p.txid ∧ q.path = ingressPath e (postOfPkt p).dest ∧ u.fabric.outq = s.fabric.outq) ∧
        (¬ mine → p.hops.toNat < s.hopLimit → p.type ≠ 2 ∨ entryOk (s.routeEntry p.dest.toNat) = true →
          ∃ u o, takes u ∧ u.fabric.outq = s.fabric.outq ++ [o] ∧ o.pkt = p ∧ o.ingress = some e ∧ o.held = false ∧ u.post = s.post) ∧
        (¬ mine → p.hops.toNat < s.hopLimit → p.type = 2 → entryOk (s.routeEntry p.dest.toNat) = false →
          ∃ u o, takes u ∧ u.fabric.outq = s.fabric.outq ++ [o] ∧ o.pkt.type = 3 ∧ o.pkt.dest = p.src ∧ o.pkt.txid = p.txid ∧
            o.pkt.args = 4 ∧ u.post = s.post) ∧
        (¬ mine → s.hopLimit ≤ p.hops.toNat → ∃ u, takes u ∧ u.fabric.outq = s.fabric.outq ∧ counted u 7))) ∧
    (∀ (i : Nat) (o : OutPkt), s.fabric.outq[i]? = some o →
      let k := 2 * vcOf o.pkt.type + (if o.pkt.cls = true ∨ s.dateline e = true then 1 else 0)
      let p : Pkt := { o.pkt with hops := o.pkt.hops + 1, cls := o.pkt.cls || s.dateline e }
      (s.clocksRun = true → s.isHeld o = false → s.egressOf o.pkt = some e → h.version ≠ 1 → h.unacked.length < 2048 →
        (o.pkt.len.toNat + 1 ≤ SMap.get 0 h.credits k → o.pkt.cut = none →
          (∀ j q, j < i → s.fabric.outq[j]? = some q → s.isHeld q = true ∨ s.egressOf q.pkt ≠ some e ∨ s.outKey e q ≠ k) →
          (∀ j, j < 8 → j ≠ k → s.readyOut e j = none) → ∃ u, exec (.packetEgress i) s = .next u ∧
          u.fabric.outq = s.fabric.outq.eraseIdx i ∧ OtherHalves s u e ∧ (u.half e).txSeq = h.txSeq + 1 ∧
          (u.half e).unacked = h.unacked ++ [{ flit := dataFlit (packetSlots (vcOf p.type) false p), resent := 0 }] ∧
          sends u (dataFlit (packetSlots (vcOf p.type) false p)) ∧
          SMap.get 0 (u.half e).credits k + (o.pkt.len.toNat + 1) = SMap.get 0 h.credits k ∧
          ∀ j, j ≠ k → SMap.get 0 (u.half e).credits j = SMap.get 0 h.credits j) ∧
        (SMap.get 0 h.credits k < o.pkt.len.toNat + 1 → exec (.packetEgress i) s = .next s) ∧
        (s.nextKey e ≠ some k → exec (.packetEgress i) s = .next s)) ∧
      (s.clocksRun = false ∨ (s.isHeld o = true ∧ o.pkt.sr = false) → exec (.packetEgress i) s = .next s) ∧
      (s.isHeld o = false → ∃ u, exec (.egressHoldExpiry i) s = .next u ∧ u.fabric.outq = s.fabric.outq.eraseIdx i) ∧
      (s.isHeld o = true → exec (.egressHoldExpiry i) s = .next s)) ∧
    (∀ d, ∃ u, exec (.failoverHoldEnd d) s = .next u ∧ u.fabric.outq.map (·.pkt) = s.fabric.outq.map (·.pkt) ∧
      (∀ o ∈ u.fabric.outq, o.pkt.dest.toNat = d → u.isHeld o = true → vcOf o.pkt.type ≠ 1) ∧
      ∀ x, x ∈ u.fabric.holds ↔ x ∈ s.fabric.holds ∧ x.1 ≠ d)

/-- The timeouts of requests: a store to another device that draws no answer fails with TIMEOUT; the completion of a read of host memory
answers the request that waits for it, and its timeout answers it with code 3; a reply whose write draws no completion puts its queue in
ERROR; a request to a peer's firmware is repeated three times, and
then the peer is unreachable (the message is the firmware's, a free value: assumption 35). The answer to a remote post message closes
its outstanding record: an acceptance says nothing to the program, a refusal sends its reason to the sender's NACK ring, and
a message that draws no answer in time is refused with TIMEOUT; an answer that names no record is counted as late (R295, R323, R343,
R364, R365, R408). -/
def Obligations.RequestsEndInTime : Prop :=
  ∀ (s : State) (r : MemReq) (tag : BitVec 32),
    let toHost (q : MemReq) : Bool := decide (q.txid = tag) && q.dev.isNone &&
      (decide (q.kind = 4) || decide (q.kind = 8) || decide (q.kind = 9))
    let answered (i : Instr) (p : Pkt) (status : Nat) (n : Nat) : Prop := ∃ u o, exec i s = .next u ∧
      u.memory.reqs = eraseFirst (fun q => q = r) s.memory.reqs ∧ u.fabric.outq = s.fabric.outq ++ [o] ∧ o.pkt.type = 8 ∧
      o.pkt.dest = p.src ∧ o.pkt.txid = p.txid ∧ (o.pkt.args.extractLsb' 0 8).toNat = status ∧ o.pkt.data.length = n ∧ u.tiles = s.tiles
    (∀ (o : StreamOp) (t' : TileId) (w : WaitSig) (rv rx : RegNo) (q : Bool) (b : Batch),
      s.memory.reqs.find? (fun r => decide (r.txid = tag) && r.dev.isSome) = some r →
      (s.ctx r.tile r.ctx).streamAt r.slot = some o → o.slot = r.slot → o.op.ins = .sflag t' w rv rx q false → o.copy = none → o.batches = [b] →
      b.first = r.batch → b.wait = [r.gran] → b.bytes ≠ [] → b.addrs.length = b.bytes.length → (∀ a ∈ b.addrs, a / 64 = r.gran) →
      (∀ x ∈ b.bytes, x.2 = 0) → o.failElem = none →
      ∃ u o', exec (.memRequestTimeout tag) s = .next u ∧ u.memory.reqs = eraseFirst (fun q => q = r) s.memory.reqs ∧
        (u.ctx r.tile r.ctx).streamAt r.slot = some o' ∧ o'.batches = [] ∧ o'.failElem = some 0 ∧ o'.failCode = 3) ∧
    (s.memory.reqs.find? (fun r => decide (r.txid = tag) && r.dev.isSome) = none → s.copyAwaits tag Option.isSome = false →
      exec (.memRequestTimeout tag) s = .next s) ∧
    (∀ (p : Pkt) (data : List Byte), s.memory.reqs.find? toHost = some r → r.kind ≠ 9 → r.origin = some p → p.type = 4 →
      answered (.hostReadCompletion tag (some data) false) p 0 (64 * (pktGrans p).length) ∧
      answered (.pcieCompletionTimeout (.read tag)) p 3 0) ∧
    (∀ q, (s.queue q).state = .active → ∃ u, exec (.pcieCompletionTimeout (.reply q)) s = .next u ∧
      u.queue q = { s.queue q with state := .error, cause := 4 } ∧ ∀ j, j ≠ q → u.queue j = s.queue j) ∧
    (∀ data poison, s.awaitsRead tag = false → exec (.hostReadCompletion tag data poison) s = .next s) ∧
    (∀ (peer : BitVec 15) (k : Nat), s.fabric.ctrlReqs.find? (fun r => r.1 = peer) = some (peer, k) →
      (k < 3 → ∃ u o, exec (.controlRequestTimeout peer) s = .next u ∧ u.fabric.outq = s.fabric.outq ++ [o] ∧ o.pkt.type = 0 ∧
        o.pkt.dest = peer ∧ (peer, k + 1) ∈ u.fabric.ctrlReqs ∧ u.fabric.unreachable = s.fabric.unreachable) ∧
      (3 ≤ k → ∃ u, exec (.controlRequestTimeout peer) s = .next u ∧ peer.toNat ∈ u.fabric.unreachable)) ∧
    (∀ (src : TileId) (c : Bool) (seq : BitVec 32) (reason : Option (BitVec 3)),
      let a : PostAck := { src := src, srcCtx := c, seq := seq, reason := reason }
      let mine (r : PostOut) : Bool := decide (r.src = src) && decide (r.srcCtx = c) && decide (r.seq = seq)
      (∀ r, s.fabric.postOut.find? mine = some r →
        (∃ u, exec (.postackReceive a) s = .next u ∧ u.fabric.postOut = eraseFirst (fun q => q = r) s.fabric.postOut ∧
          u.post.nacks = s.post.nacks ++ (match reason with
            | some k => [{ src := src, srcCtx := c, destWord := r.destWord, reason := k, tag := r.tag, seq := seq }]
            | none => []) ∧ u.tiles = s.tiles) ∧
        (∃ u, exec (.postTimeout src c seq) s = .next u ∧ u.fabric.postOut = eraseFirst (fun q => q = r) s.fabric.postOut ∧
          u.post.nacks = s.post.nacks ++ [{ src := src, srcCtx := c, destWord := r.destWord, reason := 5, tag := r.tag, seq := seq }] ∧
          u.tiles = s.tiles)) ∧
      (s.fabric.postOut.find? mine = none →
        (∃ u, exec (.postackReceive a) s = .next u ∧ u.fabric.late = satInc s.fabric.late ∧ u.post.nacks = s.post.nacks) ∧
        exec (.postTimeout src c seq) s = .next s))

/-- The fabric's registers: a routing entry is read into and written from FAB_RT_DATA while the host owns the table, and a write is
refused otherwise; discovery fills the table in AUTO mode, one neighbour's entry with the egress that leads there, a duplicate id's with no
route, and leaves it alone in HOST mode; the device id is set once; a margin sweep
runs on an ACTIVE link, is refused elsewhere without touching the one that runs, takes its points in turn, and restores the settings of an EQ
sweep's lane when it ends or stops on request; the counters and the late counts are cleared by
their own writes (R358, R363, R365, R369, R370, R377). -/
def Obligations.FabricRegisterCommands : Prop :=
  ∀ (s : State) (p : Nat) (v : Word32) (z : BitVec 3),
    let m := s.marginAt p
    let idx := s.fabric.rtIdx.toNat
    let word (i : Nat) : Nat := (SMap.get 0 s.fabric.rtData i).toNat
    let lane := (v.extractLsb' 24 4).toNat
    let swept := 2 * p + if (s.half (2 * p + 1)).state ≠ 0 ∧ 8 ≤ lane then 1 else 0
    (v.getLsbD 1 = true → v.getLsbD 0 = false → ∃ u, exec (.routeTableRead v) s = .next u ∧ u.fabric.routes = s.fabric.routes ∧
      ∀ i, i < 4 → SMap.get 0 u.fabric.rtData i = (SMap.get 0 s.fabric.routes idx).extractLsb' (32 * i) 32) ∧
    (v.getLsbD 0 = true → v.getLsbD 1 = false → v.getLsbD 31 = true → ∃ u, exec (.routeTableWrite v) s = .next u ∧
      (SMap.get 0 u.fabric.routes idx).toNat = word 0 + word 1 * 2 ^ 32 + (word 2 &&& 0x1BF) * 2 ^ 64 ∧
      ∀ j, j ≠ idx → SMap.get 0 u.fabric.routes j = SMap.get 0 s.fabric.routes j) ∧
    (v.getLsbD 0 = true → v.getLsbD 31 = false → ∃ u, exec (.routeTableWrite v) s = .next u ∧ u.fabric.rtRefused = true ∧
      u.fabric.routes = s.fabric.routes) ∧
    (∀ links dups tn6, s.fabric.rtHost = true → exec (.routeDiscovery links dups tn6) s = .next s) ∧
    (∀ (x : TopoLink) tn6, s.fabric.rtHost = false → x.a = s.fabric.devId.toNat → x.b ≠ x.a → x.ea < 64 → s.egressActive x.ea = true →
      ∃ u, exec (.routeDiscovery [x] [] tn6) s = .next u ∧
        (SMap.get 0 u.fabric.routes x.b).toNat = 2 ^ x.ea + x.ea * 2 ^ 64 + 2 ^ 71 + (if x.v1 then 2 ^ 72 else 0) ∧
        ∀ j, j ≠ x.b → SMap.get 0 u.fabric.routes j = 0) ∧
    (∀ links dups tn6 d, s.fabric.rtHost = false → d ∈ dups → ∃ u, exec (.routeDiscovery links dups tn6) s = .next u ∧
      SMap.get 0 u.fabric.routes d = 0 ∧ ∃ r ∈ u.log.staged, r.code = 0x0506) ∧
    (s.fabric.devValid = false → ∃ u, exec (.deviceIdSet v) s = .next u ∧ u.fabric.devValid = true ∧
      u.fabric.devId = v.extractLsb' 0 15) ∧
    (s.fabric.devValid = true → v.getLsbD 30 = false →
      exec (.deviceIdSet v) s = .next { s with fabric := { s.fabric with devRefused := true } }) ∧
    (v.getLsbD 31 = true → v.getLsbD 30 = false → m.state ≠ 1 → s.egressActive swept = true → ∃ u, exec (.marginStart p v) s = .next u ∧
      u.marginAt p = { m with kind := v.getLsbD 29, lane := v.extractLsb' 24 4, dwell := v.extractLsb' 19 5, state := 1, reason := 0,
                              points := 0, results := [], runKind := v.getLsbD 29, runLane := v.extractLsb' 24 4,
                              runDwell := v.extractLsb' 19 5, saved := s.getEq p (v.extractLsb' 24 4) } ∧
      (v.getLsbD 29 = false → u = { s with fabric := { s.fabric with margins := u.fabric.margins } }) ∧
      (v.getLsbD 29 = true → u.getEq p (v.extractLsb' 24 4) = .preset 0)) ∧
    (v.getLsbD 31 = true → v.getLsbD 30 = false → m.state = 1 ∨ s.egressActive swept = false →
      ∃ u, exec (.marginStart p v) s = .next u ∧ u.marginAt p =
        { m with kind := v.getLsbD 29, lane := v.extractLsb' 24 4, dwell := v.extractLsb' 19 5, refused := true }) ∧
    (v.getLsbD 30 = true → v.getLsbD 31 = false → m.state = 1 → ∃ u, exec (.marginStop p v) s = .next u ∧ (u.marginAt p).state = 3 ∧
      (u.marginAt p).reason = 2 ∧ (u.marginAt p).points = m.points ∧ (m.runKind = true → u.getEq p m.runLane = m.saved)) ∧
    (∀ errors, m.state = 1 → m.runKind = false → m.points < 1024 → ∃ u, exec (.marginPointDone p errors) s = .next u ∧
      (u.marginAt p).points = m.points + 1 ∧ (u.marginAt p).state = (if m.points = 1023 then 2 else 1) ∧
      SMap.get 0 (u.marginAt p).results m.points = BitVec.ofNat 32 (m.points % 32 * 2 ^ 24 + m.points / 32 * 65536 + min 65535 errors) ∧
      u = { s with fabric := { s.fabric with margins := u.fabric.margins } }) ∧
    (∀ errors, m.state = 1 → m.runKind = true → m.points < 64 → ∃ u, exec (.marginPointDone p errors) s = .next u ∧
      (u.marginAt p).points = m.points + 1 ∧ ((u.marginAt p).state = 1 ∨ (u.marginAt p).state = 2) ∧
      SMap.get 0 (u.marginAt p).results m.points = BitVec.ofNat 32 (m.points * 65536 + min 65535 errors) ∧
      u.getEq p m.runLane = if (u.marginAt p).state = 2 then m.saved else .preset (m.points + 1)) ∧
    (v.getLsbD 0 = true → ∃ u, exec (.fabCntClear p v) s = .next u ∧
      (∀ i, SMap.get 0 u.fabric.counters i = if i / 32 = p then 0 else SMap.get 0 s.fabric.counters i) ∧
      u = { s with fabric := { s.fabric with counters := u.fabric.counters } }) ∧
    (v.getLsbD 31 = true → exec (.fabLateClear v) s = .next { s with fabric := { s.fabric with late := 0 } } ∧
      ∃ u, exec (.fabXsyncLateClear z v) s = .next u ∧ u.xgroup z = { s.xgroup z with late := 0 } ∧ u = { s with xgroups := u.xgroups })

/-! ### External sync groups (R373–R384) -/

/-- A SYNC packet waiting at the egress stage, as this device makes it. -/
def syncOut (s : State) (dest : BitVec 15) (args : Nat) : OutPkt :=
  { pkt := s.mkPkt 1 dest 0 0 args [], ingress := none, since := s.time, held := false, stamp := s.arb.ageNow }

/-- An ARRIVE of a child is kept until the group's arrivals are complete, when this device's own goes to its parent, or, at the
root, the next barrier is released; one whose PHASE is not that of the arrival here aborts the group; one for the barrier already released
draws its RELEASE again, with the PHASE of that barrier. A RELEASE goes on to every child with its budget less the edge's latency, and the
wait it asks for begins; its end releases the zone. An ABORT, or a neighbour without a route, aborts the group and its zone with a record. An
ARRIVE unanswered is sent again and counted; a PROBE is returned as an ECHO (R374–R378, R381). -/
def Obligations.ExternalSyncGroups : Prop :=
  ∀ (s : State) (z : BitVec 3) (a : SyncPkt) (d p : BitVec 15) (f : SyncFields), s.groupZone a.group = some z →
    let x := s.xgroup z
    let complete := x.localIn = true ∧ ∀ k ∈ x.children, k = d ∨ ∃ e ∈ x.kids, e.1 = k
    let flags := (if a.newcal then 1 else 0) + 2 * (if a.ret then 1 else 0) + 4 * (if a.stop then 1 else 0) + 8 * (if a.evict then 1 else 0)
    let aborts (i : Instr) (cause : Nat) : Prop := ∃ u, exec i s = .next u ∧ (u.xgroup z).state = 3 ∧
      (u.xgroup z).cause.toNat = cause ∧ (u.zone z).aborted = true ∧
      (s.log.errs.length < 7168 → ∃ r ∈ u.log.errs, r.code = 0x0507 ∧ r.unit = z.toNat)
    (x.state ≠ 3 → d ∈ x.children → a.seq = x.seq + 1 → (∀ e ∈ x.kids, e.1 ≠ d) →
      (x.wait = none → x.localIn = true → a.phase = x.phase) → x.arriveSent = false →
      (¬ complete → ∃ u, exec (.xsyncArriveReceive d a) s = .next u ∧ u.fabric = s.fabric ∧ u.xgroup z =
        { x with kids := x.kids ++ [(d, a.phase)], state := if x.wait.isSome then x.state else 1 }) ∧
      (complete → x.isRoot = false → x.parent = some p → (s.zone z).first = some f → ∃ u, exec (.xsyncArriveReceive d a) s = .next u ∧
        (u.xgroup z).arriveSent = true ∧ (u.xgroup z).seq = x.seq ∧
        u.fabric.outq = s.fabric.outq ++ [syncOut s p (syncArgs 0 0 x.gid f.phase.toNat (x.seq + 1).toNat 0)]) ∧
      (complete → x.isRoot = true → ∃ u, exec (.xsyncArriveReceive d a) s = .next u ∧ (u.xgroup z).state = 2 ∧
        (u.xgroup z).seq = x.seq + 1 ∧ (u.xgroup z).wait.isSome = true ∧ (u.xgroup z).kids = [] ∧
        u.fabric.outq.length = s.fabric.outq.length + x.children.length)) ∧
    (x.state = 3 ∨ d ∉ x.children → exec (.xsyncArriveReceive d a) s = .next s) ∧
    (x.state ≠ 3 → d ∈ x.children → a.seq = x.seq + 1 → (∀ e ∈ x.kids, e.1 ≠ d) → x.wait = none → x.localIn = true → a.phase ≠ x.phase →
      ∃ u, exec (.xsyncArriveReceive d a) s = .next u ∧ (u.xgroup z).state = 3 ∧ (u.xgroup z).cause.toNat = 1 ∧
        (u.zone z).aborted = true) ∧
    (x.state ≠ 3 → d ∈ x.children → a.seq = x.seq → x.wait = none → ∃ u, exec (.xsyncArriveReceive d a) s = .next u ∧
      u.xgroups = s.xgroups ∧ u.fabric.outq = s.fabric.outq ++
        [syncOut s d (syncArgs 1 x.relFlags.toNat x.gid x.relPhase.toNat x.seq.toNat 0)]) ∧
    (x.state ≠ 3 → a.seq = x.seq + 1 → x.arriveSent = true → x.isRoot = false → a.newcal = false →
      let y : XGroup :=
        { x with state := 2, seq := a.seq, phase := a.phase, kids := [], relFlags := BitVec.ofNat 4 flags,
                 relPhase := a.phase, wait := some ((8 * a.value.toNat + 4) / 5) }
      ∃ u, exec (.xsyncReleaseReceive a) s = .next u ∧ u.xgroup z = y ∧
        u.fabric.outq = s.fabric.outq ++ (x.edges.filter fun e => e.2.valid).map fun e => syncOut s e.2.child
          (syncArgs 1 flags x.gid a.phase.toNat a.seq.toNat (a.value.toNat - if e.2.meas = true then e.2.lat.toNat else 0))) ∧
    (x.wait.isSome = true → (s.zone z).bar = .waitExt → s.releaseHeld z = false → ∃ u, exec (.xsyncReleaseWaitEnd z) s = .next u ∧
      (u.zone z).bar = .exchanging ∧ (u.xgroup z).wait = none ∧ (u.xgroup z).localIn = false ∧ (u.xgroup z).arriveSent = false) ∧
    (x.wait = none ∨ (s.zone z).bar ≠ .waitExt → exec (.xsyncReleaseWaitEnd z) s = .next s) ∧
    (x.state ≠ 3 → aborts (.xsyncAbortReceive d a) (a.value.toNat % 16)) ∧
    (x.state ≠ 3 → d ∈ x.neighbours → s.activeOf (s.routeEntry d.toNat) = [] → aborts (.xsyncPeerLost z d) 2) ∧
    (x.state ≠ 3 → x.arriveSent = true → x.wait = none → x.isRoot = false → x.parent = some p →
      ∃ u, exec (.xsyncArriveRepeat z) s = .next u ∧ u.xgroup z = { x with late := satInc x.late } ∧
        u.fabric.outq = s.fabric.outq ++ [syncOut s p (syncArgs 0 0 x.gid x.phase.toNat (x.seq + 1).toNat 0)]) ∧
    (∃ u, exec (.xsyncProbeReceive d a) s = .next u ∧ u.xgroups = s.xgroups ∧
      u.fabric.outq = s.fabric.outq ++ [syncOut s d (syncArgs 4 0 x.gid a.phase.toNat 0 0)])

/-- The calibration sweep: it starts at the root, or is repeated once a broken edge has a route again or the tree is rebuilt, with the
first edge; 64 ECHOs in their
order measure an edge, whose latency is half the mean round trip less 20 ns, rounded up, and pass the walk on; a missing ECHO is asked for
three times more; the walk that comes back goes on to the next edge; a break reported to the root ends the sweep with its reason
(R381–R384). -/
def Obligations.CalibrationSweep : Prop :=
  ∀ (s : State) (z : BitVec 3) (e : Nat × XEdge) (v : Word32), (s.xgroup z).enabled = true → (s.xgroup z).state ≠ 3 →
    let x := s.xgroup z
    let edge (j : Nat) : XEdge := SMap.get XEdge.reset x.edges j
    let sent (u : State) (j n : Nat) : Prop :=
      u.fabric.outq = s.fabric.outq ++ [syncOut s (edge j).child (syncArgs 3 0 x.gid n 0 0)]
    let starts (i : Instr) : Prop := ∃ u, exec i s = .next u ∧ (u.xgroup z).calState = 1 ∧ (u.xgroup z).walk = some (e.1, 0, 0, 0) ∧
      (u.xgroup z).nextChain = 1 ∧ sent u e.1 0
    (x.isRoot = true → x.calState ≠ 1 → x.edges.find? (fun e => e.2.valid) = some e → v.getLsbD 31 = true → v.getLsbD 29 = true →
      starts (.xsyncSweepStart z v)) ∧
    (x.isRoot = true → x.calState = 3 → x.breakReason = 1 → s.edgeRouted x = true → x.edges.find? (fun e => e.2.valid) = some e →
      starts (.sweepRepeat z false)) ∧
    (x.calState ≠ 3 ∨ x.breakReason ≠ 1 ∨ s.edgeRouted x = false → exec (.sweepRepeat z false) s = .next s) ∧
    (x.isRoot = true → x.root = s.fabric.devId → x.calState ≠ 1 → ∃ u, exec (.sweepRepeat z true) s = .next u ∧
      (u.xgroup z).parent = none ∧ (∀ k ∈ (u.xgroup z).children, k.toNat ∈ s.neighbourIds) ∧ (u.xgroup z).breakReason = 0 ∧
      (u.xgroup z).calState = if (u.xgroup z).children = [] then 2 else 1) ∧
    (x.isRoot = false → exec (.sweepRepeat z true) s = .next s) ∧
    (∀ (j n sum again rtt : Nat) (a : SyncPkt), x.walk = some (j, n, sum, again) → s.groupZone a.group = some z → (edge j).valid = true →
      a.phase.toNat = n →
      (n < 63 → ∃ u, exec (.xsyncEchoReceive (edge j).child a rtt) s = .next u ∧
        (u.xgroup z).walk = some (j, n + 1, sum + rtt, 0) ∧ sent u j (n + 1)) ∧
      (n = 63 → ∃ u, exec (.xsyncEchoReceive (edge j).child a rtt) s = .next u ∧ (u.xgroup z).walk = some (j, 64, 0, 0) ∧
        let l := (sum + rtt - 1280 + 127) / 128
        (SMap.get XEdge.reset (u.xgroup z).edges j).pendMeas = true ∧
        (SMap.get XEdge.reset (u.xgroup z).edges j).pendLat.toNat = min 4095 l ∧
        (u.xgroup z).maxPath = max x.maxPath (x.pendPath.toNat + min 4095 l))) ∧
    (∀ j n sum again, x.walk = some (j, n, sum, again) → n < 64 → again < 3 →
      ∃ u, exec (.xsyncEchoTimeout z) s = .next u ∧ (u.xgroup z).walk = some (j, n, sum, again + 1) ∧ sent u j n) ∧
    (∀ j n sum again, x.walk = some (j, n, sum, again) → n < 64 → 3 ≤ again → x.isRoot = true → x.calState = 1 →
      ∃ u, exec (.xsyncEchoTimeout z) s = .next u ∧ (u.xgroup z).calState = 3 ∧ (u.xgroup z).breakReason = 1 ∧
        (u.xgroup z).breakPeer = (edge j).child ∧ (u.xgroup z).walk = none) ∧
    (∀ j n sum again, x.walk = some (j, n, sum, again) → n < 64 → 3 ≤ again → x.isRoot = false →
      ∃ u, exec (.xsyncEchoTimeout z) s = .next u ∧ (u.xgroup z).walk = none ∧ (∃ k, (x.root, k) ∈ u.fabric.ctrlReqs)) ∧
    (∀ path chain measured, x.isRoot = false → x.edges.find? (fun e => e.2.valid) = some e →
      ∃ u, exec (.xsyncWalkMessage z (.down path chain measured)) s = .next u ∧ (u.xgroup z).walk = some (e.1, 0, 0, 0) ∧
        (u.xgroup z).chain = chain ∧ (u.xgroup z).nextChain = chain + 1 ∧ (u.xgroup z).pendPath = BitVec.ofNat 20 path ∧ sent u e.1 0) ∧
    (∀ j r maxPath chain edges, x.walk = some (j, 64, r) → j < 64 → x.edges.find? (fun e => e.2.valid && !e.2.pendMeas) = some e →
      ∃ u, exec (.xsyncWalkMessage z (.up maxPath chain edges)) s = .next u ∧ (u.xgroup z).walk = some (e.1, 0, 0, 0) ∧
        (u.xgroup z).nextChain = chain ∧ (u.xgroup z).maxPath = max x.maxPath maxPath ∧ sent u e.1 0) ∧
    (∀ (index : Nat) (dev peer : BitVec 15) (edges maxPath : Nat), x.isRoot = true → x.calState = 1 →
      ∃ u, exec (.xsyncBreakReport z index dev peer edges maxPath) s = .next u ∧ (u.xgroup z).calState = 3 ∧
        (u.xgroup z).breakReason = 1 ∧ (u.xgroup z).breakIndex = BitVec.ofNat 15 index ∧ (u.xgroup z).breakDev = dev ∧
        (u.xgroup z).breakPeer = peer ∧ ∃ r ∈ u.log.staged, r.code = 0x0508 ∧ r.unit = z.toNat)

/-! ### Power and heat (R388–R407, R451) -/

/-- Domains: an idle one is switched off where switching is on and its condition holds, once no command waits for a domain; the next that
waits comes on; a written request, kept as it was written, switches a stack's domain off where no context is loaded and is refused
elsewhere, and asks for it again. Governor: an
entry chosen anew fits its zone's share or is the lowest, and shares follow R397; a region's code moves one step to its target. Limits: samples
count the energy and raise the excess throttle when the condition arises; a stack that no longer reports fences the device; readings, temperatures and reports out of range are counted and raise their alarms; the
thermal cap moves by one code; the trip fences the device (R388–R407, R451). -/
def Obligations.PowerDomainsGovernorAndHeat : Prop :=
  ∀ (s : State) (v : Word32) (n : Nat) (i : Int),
    (s.domHeld = false → s.power.domWork = [] →
      (s.power.domCfg.getLsbD 31 = true → n < 160 ∨ (202 ≤ n ∧ n < 206) → s.domainOn n = true → n ∉ s.power.domPending →
        s.mayBeOff n = true → ∃ u, exec (.domainIdleExpiry n) s = .next u ∧ u.domainOn n = false) ∧
      (s.power.domCfg.getLsbD 31 = false ∨ s.mayBeOff n = false →
        exec (.domainIdleExpiry n) s = .next { s with power := { s.power with domHold := false } })) ∧
    (s.domHeld = true → exec (.domainIdleExpiry n) s =
      .next { s with power := { s.power with domWork := s.power.domWork ++ [.idle n] } }) ∧
    (s.power.domPending.head? = some n → ∃ u, exec (.domainSwitchOnDone n) s = .next u ∧ u.domainOn n = true ∧
      n ∉ u.power.domPending) ∧
    (s.power.domPending.head? ≠ some n → exec (.domainSwitchOnDone n) s = .next s) ∧
    (s.domHeld = false → s.power.domWork = [] → ∀ m, m < 8 → ∃ u, exec (.domainRequestWrite 0x144 v) s = .next u ∧
      u.domReqOff (162 + m) = v.getLsbD (m + 2) ∧
      (v.getLsbD (m + 2) = true → s.anyLoadedCtx = true → u.domainOn (162 + m) = s.domainOn (162 + m) ∧
        u.power.domRefuse.getLsbD 31 = true) ∧
      (v.getLsbD (m + 2) = true → s.anyLoadedCtx = false → s.memory.intlvBusy = false → s.domainOn (162 + m) = true →
        u.domainOn (162 + m) = false ∧ (u.stack m).selfRefresh = true) ∧
      (v.getLsbD (m + 2) = false → u.domainOn (162 + m) = true ∨ (162 + m) ∈ u.power.domPending)) ∧
    (∀ (z : BitVec 3) (ph : BitVec 8), s.govFixed = false → ∃ u, exec (.phaseEntryRecompute z ph) s = .next u ∧
      let r := 256 * z.toNat + ph.toNat
      let p := u.phaseRec r
      p = { s.phaseRec r with k := p.k, q := p.q, floor := p.floor } ∧ p.k.toNat ≤ s.kmax ∧ 1 ≤ p.q.toNat ∧ p.q.toNat ≤ 16 ∧
      (p.floor = false → (s.predNum r p.k.toNat p.q.toNat : Int) * 4294967296 ≤ (s.zonePower z.toNat).share * (s.wattUnit : Int)) ∧
      (p.floor = true → p.k = 0 ∧ p.q = 1) ∧ ∀ o, o ≠ r → u.phaseRec o = s.phaseRec o) ∧
    (s.govFixed = false → ∃ u, exec .shareRecompute s = .next u ∧
      ∀ z, (u.zonePower z.toNat) = { s.zonePower z.toNat with
        share := if s.zoneStarted z = true then s.shareOf z else (s.zonePower z.toNat).share }) ∧
    (s.govFixed = true → exec .shareRecompute s = .next s) ∧
    (n < 16 → ∃ u, exec (.clockCodeStep n) s = .next u ∧ u = { s with regions := u.regions } ∧
      u.region n = { s.region n with clkActive :=
        if (s.region n).clkActive < (s.region n).clkTarget then (s.region n).clkActive + 1
        else if (s.region n).clkTarget < (s.region n).clkActive then (s.region n).clkActive - 1 else (s.region n).clkActive }) ∧
    (∃ u, exec (.powerSample n) s = .next u ∧ u.power.energy = s.power.energy + BitVec.ofNat 64 ((s.power.energyRem + n) / 2) ∧
      u.power.energyRem = (s.power.energyRem + n) % 2 ∧ u.power.samples = (n :: s.power.samples).take 20 ∧
      (4 ≤ u.power.samples.length → 4 * s.power.cap.toNat < (u.power.samples.take 4).sum → s.power.excessCond = false →
        u.power.excessCond = true ∧ u.power.excess = true ∧ u.power.excessCount = satInc s.power.excessCount ∧ ∃ r ∈ u.log.staged, r.code = 0x0405)) ∧
    exec (.monitorCalibration n) s = .next s ∧
    (∃ u, exec (.pwrCapWrite v) s = .next u ∧ u = { s with power := { s.power with cap := u.power.cap } } ∧
      u.power.cap.toNat = min 2200 (max 1000 (v.extractLsb' 0 12).toNat)) ∧
    (v.getLsbD 31 = true → exec (.pwrExcessClear v) s = .next { s with power := { s.power with excessCount := 0 } }) ∧
    (∀ die, die < 2 → n < 64 →
      (-40 ≤ i → i ≤ 150 → SMap.get none (s.dieTherm die).sensors n = none → ∃ u, exec (.junctionSensorRead die n i) s = .next u ∧
        SMap.get none (u.dieTherm die).sensors n = some i ∧ n ∉ (u.dieTherm die).excluded ∧ u.chip = s.chip) ∧
      (i < -40 ∨ 150 < i → ∃ u, exec (.junctionSensorRead die n i) s = .next u ∧ n ∈ (u.dieTherm die).excluded ∧
        u.chip.extRange = satInc s.chip.extRange ∧ ∃ r ∈ u.log.staged, r.code = 0x0407 ∧ r.unit = die) ∧
      (s.dieHot die = true → ∃ u, exec (.thermalCapStep die) s = .next u ∧
        (u.dieTherm die).cap.toNat = (s.dieTherm die).cap.toNat - 1 ∧ ∃ r ∈ u.log.staged, r.code = 0x0406 ∧ r.unit = die) ∧
      (s.dieHot die = false → (∀ r ∈ (s.dieTherm die).readings, r.2 ≤ s.throttleC - 3) → (s.dieTherm die).cap.toNat < 42 →
        ∃ u, exec (.thermalCapStep die) s = .next u ∧ (u.dieTherm die).cap = (s.dieTherm die).cap + 1) ∧
      (∀ temp : BitVec 8, 105 ≤ temp.toNat → s.power.thermTrip.getLsbD 31 = false → ∃ u, exec (.thermalTrip die n temp) s = .next u ∧
        u.chip.thermtripLow = true ∧ u.log.fenced = true ∧
        u.power.thermTrip.toNat = 2 ^ 31 + die * 2 ^ 30 + n * 2 ^ 24 + temp.toNat)) ∧
    (n < 8 → (∃ u, exec (.hbmTemperatureReport n none) s = .next u ∧ u.log.fenced = true) ∧
      (0 ≤ i → i ≤ 125 → ∃ u, exec (.hbmTemperatureReport n (some i)) s = .next u ∧
        u.stack n = { s.stack n with temp := BitVec.ofInt 8 i, refDouble := decide (85 < i) } ∧
        ((s.hbmLimit : Int) ≤ i → u.power.hbmThr = true) ∧ u.chip = s.chip) ∧
      (i < 0 ∨ 125 < i → ∃ u, exec (.hbmTemperatureReport n (some i)) s = .next u ∧ u.stack n = s.stack n ∧
        u.chip.extRange = satInc s.chip.extRange ∧ ∃ r ∈ u.log.staged, r.code = 0x0407 ∧ r.unit = n))

/-! ### The host port (R12–R14, R343–R345, R408–R417, R420, R422) -/

/-- The command with this header, opcode and parameters has been started from its queue, and nothing keeps it from its family: the
device is not fenced, the queue is active, and outputs leave at once (R408, R414, R428). -/
structure Given (s : State) (h : CmdHdr) (op : BitVec 16) (fields : List (Nat × Nat × Nat)) : Prop where
  started : s.hasCmd h op fields = true
  working : s.log.fenced = false
  active : (s.queue h.queue).state = .active
  number : h.queue < 64
  head : (s.queue h.queue).sqHead < 4096
  awake : s.host.power = .d0

/-- A reply with this status, DETAIL and RESULT leaves for the command's queue (R419). -/
def Replies (s u : State) (h : CmdHdr) (op : BitVec 16) (status detail : Nat) (result : BitVec 128) : Prop :=
  ∃ l n e, u.host.out = s.host.out ++ l ∧ HostOut.reply h.queue n e ∈ l ∧ e.extractLsb' 0 32 = h.seq ∧
    (e.extractLsb' 32 16).toNat = status ∧ e.extractLsb' 80 16 = op ∧ (e.extractLsb' 96 32).toNat = detail ∧
    e.extractLsb' 128 128 = result

/-- Doorbells move a queue's pointers within its rings, and a value beyond them is the queue's error; a fetch reads the next command of
the queue whose turn it is from its ring; the read's completion starts the command, keeps back one behind FENCE, answers one that fails its
checks, and a fetch that failed is the queue's error; the admin queue comes with its enable; a coalesced reply is signalled at its time; a command that waits too long replies TIMEOUT
(R411–R417, R420, R422). -/
def Obligations.CommandQueuesAreServed : Prop :=
  ∀ (s : State) (q : Nat) (v : Word32),
    let r := s.queue q
    let only (u : State) (x : CmdQueue) : Prop := u.queue q = x ∧ (∀ o, o ≠ q → u.queue o = s.queue o) ∧
      u = { s with host := { s.host with queues := u.host.queues } }
    let err (k : BitVec 3) : CmdQueue := { r with state := .error, cause := k }
    (r.state = .active →
      (v.toNat < r.sqSize → ∃ u, exec (.sqTailDoorbell q v) s = .next u ∧ only u { r with sqTail := v.toNat }) ∧
      (r.sqSize ≤ v.toNat → ∃ u, exec (.sqTailDoorbell q v) s = .next u ∧ only u (err 1)) ∧
      (r.cqSize ≤ v.toNat → ∃ u, exec (.cqHeadDoorbell q v) s = .next u ∧ only u (err 2)) ∧
      (v.toNat < r.cqSize → v.toNat ≠ r.cqHead → r.cqHead < r.cqSize →
        let n := (v.toNat + r.cqSize - r.cqHead) % r.cqSize
        (n ≤ r.cqUsed → ∃ u, exec (.cqHeadDoorbell q v) s = .next u ∧ only u { r with cqHead := v.toNat, cqUsed := r.cqUsed - n }) ∧
        (r.cqUsed < n → ∃ u, exec (.cqHeadDoorbell q v) s = .next u ∧ only u (err 2)))) ∧
    (q < 64 → s.host.ready = true → s.host.power = .d0 → s.busHeld = false → s.idleMgmt = true → s.fetching = false →
      s.canFetch q = true → s.turnAt q = true →
      ∃ u, exec (.commandFetch q) s = .next u ∧ u.host.turn = (q + 1) % 64 ∧
        (s.power.domWork = [] → u.queue q = r ∧
          u.host.out = s.host.out ++ [.read s.memory.nextTx (r.sqBase.toNat + 64 * r.sqHead) 64] ∧
          ∃ m, u.memory.reqs = s.memory.reqs ++ [m] ∧ m.txid = s.memory.nextTx ∧ m.dev = none ∧ m.kind = 9 ∧ m.gran = q)) ∧
    (s.host.ready = false ∨ s.canFetch q = false ∨ s.busHeld = true ∨ s.fetching = true → exec (.commandFetch q) s = .next s) ∧
    (∀ (m : MemReq) (tag : BitVec 32), r.state = .active → m.kind = 9 → m.gran = q →
      s.memory.reqs.find? (fun r => decide (r.txid = tag) && r.dev.isNone &&
        (decide (r.kind = 4) || decide (r.kind = 8) || decide (r.kind = 9))) = some m →
      (∃ u, exec (.pcieCompletionTimeout (.read tag)) s = .next u ∧ u.queue q = err 3) ∧
      (∀ data : List Byte, ∃ u, exec (.hostReadCompletion tag (some data) true) s = .next u ∧ u.queue q = err 3) ∧
      (∃ u, exec (.hostReadCompletion tag none false) s = .next u ∧ u.queue q = err 3) ∧
      ∀ (data : List Byte) (p : BitVec 512), data.length = 64 → p = BitVec.ofNat 512 (leNat data) →
        let op : BitVec 16 := p.extractLsb' 0 16
        (p.getLsbD 24 = true → r.started ≠ [] → ∃ u, exec (.hostReadCompletion tag (some data) false) s = .next u ∧ u.queue q = r ∧
          u.host.out = s.host.out) ∧
        (p.getLsbD 24 = false ∨ r.started = [] →
          (s.packetError q p = none → ∃ u e, exec (.hostReadCompletion tag (some data) false) s = .next u ∧
            u.queue q = { r with sqHead := if r.sqSize ≤ r.sqHead + 1 then 0 else r.sqHead + 1, started := r.started ++ [e] } ∧
            e.packet = p ∧ e.opcode = op ∧ e.seq = p.extractLsb' 32 32 ∧ e.run = false) ∧
          (∀ st det, s.packetError q p = some (st, det) → s.host.power = .d0 → q < 64 → r.sqHead < 4096 → st < 65536 → det < 2 ^ 32 →
            ∃ u h, exec (.hostReadCompletion tag (some data) false) s = .next u ∧ h.queue = q ∧ h.seq = p.extractLsb' 32 32 ∧
              Replies s u h op st det 0))) ∧
    (r.state = .active → r.coTime ≠ 0 → r.sinceSignal ≠ 0 → s.host.power = .d0 →
      (SMap.get msixReset s.host.msix r.vector).getLsbD 96 = false →
      ∃ u, exec (.coalesceTimeout q) s = .next u ∧ u.queue q = { r with sinceSignal := 0, firstSince := none } ∧
        u.host.out = s.host.out ++ [.msix r.vector]) ∧
    (∀ (w : Waiter) (seq : BitVec 32),
      s.host.waits.find? (fun w => decide (w.hdr.queue = q) && decide (w.hdr.seq = seq) && w.deadline.isSome) = some w →
      r.state = .active → r.sqHead < 4096 → q < 64 → s.host.power = .d0 → w.opcode.getLsbD 15 = false →
      ∃ u, exec (.commandTimeout q seq) s = .next u ∧ Replies s u w.hdr w.opcode 5 0 0) ∧
    (v.getLsbD 31 = true → s.host.ready = true → s.host.adminEn = false → (s.queue 0).state = .none →
      let sq := (s.host.adminSize.extractLsb' 0 13).toNat
      let cq := (s.host.adminSize.extractLsb' 16 13).toNat
      ∃ u, exec (.adminQueueEnable v) s = .next u ∧ u.host.adminEn = true ∧ (u.queue 0).sqSize = sq ∧ (u.queue 0).cqSize = cq ∧
        (u.queue 0).state = if 2 ≤ sq ∧ sq ≤ 4096 ∧ 2 ≤ cq ∧ cq ≤ 4096 then .active else .error)

/-- The BARs: a read through the BAR2 window returns package memory's bytes and a write stores them; outside memory and before READY the
access is counted and a read unsupported; an access to a stack that is asleep wakes it, and to one that is held off is refused; so is every bad access of BAR0. The low word's read of a pair keeps the high word for its
own; the high word's write is kept until the low word's, which changes both at once. A register's write changes it. Leaving D0 keeps
outputs back, and D0 lets them go (R12, R13, R343, R344, R408, R410). -/
def Obligations.BarAccesses : Prop :=
  ∀ (s : State) (off len : Nat) (v : Word32) (data : List Byte), s.host.power = .d0 →
    let a := s.host.bar2Base.toNat + off
    let mem (u : State) (p : Nat) : Byte := SMap.get 0 u.memory.bytes p
    let whole (n : Nat) : Prop := ∀ k, a ≤ k → k < a + n → s.granErr (k / 64) = .ok
    let asleep (n : Nat) : List Nat := s.rangeAsleep (s.globalAddr a) n
    let counted (u : State) : Prop := u.log.hostErr.extractLsb' 0 16 = satInc (s.log.hostErr.extractLsb' 0 16)
    (s.inBar2 off len = false → exec (.bar2Read off len) s = .next s) ∧
    (s.inBar2 off data.length = false → exec (.bar2Write off data false) s = .next s) ∧
    (s.host.ready = true → s.inBar2 off len = true → a + len ≤ s.capacity →
      ((asleep len).any (fun m => s.domReqOff (162 + m)) = true → ∃ u, exec (.bar2Read off len) s = .next u ∧
        u.host.out = s.host.out ++ [.unsupported] ∧ u.memory = s.memory) ∧
      (asleep len ≠ [] → (asleep len).any (fun m => s.domReqOff (162 + m)) = false → ∃ u, exec (.bar2Read off len) s = .next u ∧
        u.host = s.host ∧ u.memory = s.memory ∧ ∀ m ∈ asleep len, u.domainOn (162 + m) = true ∨ (162 + m) ∈ u.power.domPending)) ∧
    (s.host.ready = true → s.inBar2 off data.length = true → a + data.length ≤ s.capacity →
      ((asleep data.length).any (fun m => s.domReqOff (162 + m)) = true → ∃ u, exec (.bar2Write off data false) s = .next u ∧
        u.host = s.host ∧ u.memory = s.memory ∧ counted u) ∧
      (asleep data.length ≠ [] → (asleep data.length).any (fun m => s.domReqOff (162 + m)) = false →
        ∃ u, exec (.bar2Write off data false) s = .next u ∧ u.host = s.host ∧ u.memory = s.memory ∧
          ∀ m ∈ asleep data.length, u.domainOn (162 + m) = true ∨ (162 + m) ∈ u.power.domPending)) ∧
    (s.host.ready = true → (∀ m, m < 8 → s.domainOn (162 + m) = true) →
      (s.inBar2 off len = true → a + len ≤ s.capacity → 0 < len → whole len → ∃ u, exec (.bar2Read off len) s = .next u ∧
        u.host.out = s.host.out ++ [.completion (memRead s.memory.bytes a len) false] ∧ u.memory.bytes = s.memory.bytes) ∧
      (s.inBar2 off data.length = true → a + data.length ≤ s.capacity → 0 < data.length → whole data.length → ∃ u, exec (.bar2Write off data false) s = .next u ∧
        (∀ i, i < data.length → mem u (a + i) = data.getD i 0) ∧
        (∀ p, (p < a ∨ a + data.length ≤ p) → mem u p = mem s p) ∧ u.host = s.host)) ∧
    (s.inBar2 off len = true → s.host.ready = false ∨ s.capacity < a + len → ∃ u, exec (.bar2Read off len) s = .next u ∧
      u.host.out = s.host.out ++ [.unsupported] ∧ counted u ∧ u.memory = s.memory) ∧
    (s.inBar2 off data.length = true → s.host.ready = false ∨ s.capacity < a + data.length →
      ∃ u, exec (.bar2Write off data false) s = .next u ∧ u.host = s.host ∧ u.memory = s.memory ∧ counted u) ∧
    (∃ u, exec .bar0BadAccess s = .next u ∧ u.host.out = s.host.out ++ [.unsupported] ∧
      u.log.hostErr.extractLsb' 16 16 = satInc (s.log.hostErr.extractLsb' 16 16)) ∧
    (s.portUp = true → s.host.ready = true →
      (isPairLow off = true → ∃ u, exec (.bar0PairLowRead off) s = .next u ∧
        u.host.out = s.host.out ++ [.completion (leBytes 4 (s.pairValue off % 2 ^ 32)) false] ∧
        SMap.get 0 u.host.pairHold off = BitVec.ofNat 32 (s.pairValue off / 2 ^ 32)) ∧
      (∃ u, exec (.bar0PairHighWrite 0x100034 v) s = .next u ∧ u.host.bar2Base = s.host.bar2Base ∧ (0x100030, v) ∈ u.host.pairStage) ∧
      (∀ hi : Word32, s.host.pairStage.find? (fun e => e.1 = 0x100030) = some (0x100030, hi) →
        ∃ u, exec (.bar0PairLowWrite 0x100030 v) s = .next u ∧ u.host.bar2Base = (hi ++ v) &&& 0x1FFC0000000 ∧
          ∀ e ∈ u.host.pairStage, e.1 ≠ 0x100030) ∧
      (∃ u, exec (.registerWrite 0x300 v) s = .next u ∧ u = s) ∧
      (∃ u, exec (.registerWrite 0x100020 v) s = .next u ∧
        (s.host.adminEn = false → u.host.adminSize = v &&& 0x1FFF1FFF) ∧ (s.host.adminEn = true → u = s)) ∧
      (off % 4 ≠ 0 → ∃ u, exec (.registerWrite off v) s = .next u ∧ u.host.out = s.host.out ++ [.unsupported] ∧
        u.log.hostErr.extractLsb' 16 16 = satInc (s.log.hostErr.extractLsb' 16 16))) ∧
    (∃ u, exec (.hostPowerState .d3hot) s = .next u ∧ u.host.power = .d3hot ∧ ∀ o, u.emit o =
      { u with host := { u.host with held := u.host.held ++ [o] } }) ∧
    (∃ u, exec (.hostPowerState .l2) s = .next u ∧ u.domainOn 206 = false) ∧
    (s.host.copies = [] → ∃ u, exec (.hostPowerState .d0) s = .next u ∧ u.domainOn 206 = true ∧
      u.host.out = s.host.out ++ s.host.held ∧ u.host.held = [])

/-! ### Host commands (R392, R395, R420–R424, R463, R466) -/

/-- The commands of the management, power, telemetry and log families do what they name and reply: versions and ids, configuration, queues,
the cap, hints, domains, samples, dumps, events, the log, a repair, and a register's access (R35, R389, R392, R395, R412, R417, R423,
R424, R463, R466). -/
def Obligations.ManagementCommandsReply : Prop :=
  ∀ (s : State) (h : CmdHdr),
    (Given s h 0x0001 [] → ∃ u r, exec (.identify h) s = .next u ∧ Replies s u h 0x0001 0 0 r ∧
      r.extractLsb' 32 15 = s.fabric.devId ∧ r.extractLsb' 80 8 = 6) ∧
    (∀ m : BitVec 8, Given s h 0x0002 [(0, 1, m.toNat)] → (∀ q ∈ s.host.queues, q.1 = 0 ∨ q.2.state = .none) → m.getLsbD 2 = true →
      ∃ u, exec (.negotiate h m) s = .next u ∧ Replies s u h 0x0002 0 0 0x602 ∧ u.host.major = 2 ∧ u.host.negotiated = true) ∧
    (∀ (dev size : BitVec 16) (zm : BitVec 32), Given s h 0x0003 [(0, 2, dev.toNat), (2, 2, size.toNat), (4, 4, zm.toNat)] →
      dev.getLsbD 15 = true → s.fabric.devValid = false → s.anyLoaded = false → ∃ u, exec (.setConfig h dev size zm) s = .next u ∧
        u.host.sysSize = size ∧ u.host.zoneMap = zm ∧ u.fabric.devValid = true ∧ u.fabric.devId = dev.extractLsb' 0 15 ∧
        Replies s u h 0x0003 0 0 ((dev.extractLsb' 0 15).zeroExtend 128)) ∧
    (∀ p : QueueParams, Given s h 0x0004 [(0, 1, p.queue), (2, 2, p.sqEntries), (4, 2, p.cqEntries), (6, 2, p.vector),
        (8, 8, p.sqBase.toNat), (16, 8, p.cqBase.toNat), (24, 1, p.coCount), (26, 2, p.coTime)] → (s.queue p.queue).state = .none →
      ∃ u, exec (.queueCreate h p) s = .next u ∧ Replies s u h 0x0004 0 0 0 ∧ (u.queue p.queue).state = .active ∧
        (u.queue p.queue).sqSize = p.sqEntries ∧ (u.queue p.queue).cqSize = p.cqEntries ∧ (u.queue p.queue).sqHead = 0 ∧
        (u.queue p.queue).started = []) ∧
    (∀ q, Given s h 0x0005 [(0, 1, q)] → q ≠ h.queue → (s.queue q).state = .active → (s.queue q).started = [] →
      (∀ w ∈ s.host.waits, w.hdr.queue ≠ q ∧ w.kind ≠ .queueDelete q) → (s.queue 0).state ≠ .deleting →
      ∃ u, exec (.queueDelete h q) s = .next u ∧ (u.queue q).state = .none ∧ Replies s u h 0x0005 0 0 0) ∧
    (∀ w : BitVec 16, Given s h 0x0401 [(0, 2, w.toNat)] → ∃ u, exec (.cap h w) s = .next u ∧
      u.power.cap.toNat = min 2200 (max 1000 w.toNat) ∧ Replies s u h 0x0401 0 0 (.ofNat 128 (min 2200 (max 1000 w.toNat)))) ∧
    (∀ e : Word, Given s h 0x0402 [(0, 1, 1), (8, 8, e.toNat)] → e.getLsbD 11 = false → e.extractLsb' 12 3 ≠ 0 →
      let r := 256 * (e.extractLsb' 8 3).toNat + (e.extractLsb' 0 8).toNat
      ∃ u, exec (.hint h [e]) s = .next u ∧ Replies s u h 0x0402 0 0 0 ∧ (u.phaseRec r).cls = e.extractLsb' 12 3 ∧
        ∀ o, o ≠ r → u.phaseRec o = s.phaseRec o) ∧
    (∀ m, m < 8 → Given s h 0x0403 [(0, 1, 162 + m), (1, 1, 1)] → s.domainOn (162 + m) = true →
      (s.anyLoadedCtx = false → s.memory.intlvBusy = false → ∃ u, exec (.domain h (162 + m) true) s = .next u ∧
        u.domainOn (162 + m) = false ∧ Replies s u h 0x0403 0 0 0) ∧
      (s.anyLoadedCtx = true → ∃ u, exec (.domain h (162 + m) true) s = .next u ∧ u.domainOn (162 + m) = true ∧
        Replies s u h 0x0403 0xC (162 + m) 0)) ∧
    (Given s h 0x0501 [] → ∃ u r, exec (.sample h) s = .next u ∧ Replies s u h 0x0501 0 0 r ∧ r.extractLsb' 0 64 = s.power.energy ∧
      r.extractLsb' 64 12 = s.power.draw) ∧
    (∀ (z : BitVec 3) (buf len : Nat), Given s h 0x0502 [(0, 1, 0), (1, 1, z.toNat), (8, 8, buf), (16, 4, len)] → 128 ≤ len →
      ∃ u l w, exec (.dump h 0 z buf len) s = .next u ∧ Replies s u h 0x0502 0 0 128 ∧ u.host.out = s.host.out ++ l ∧
        .write buf w false ∈ l ∧ w.length = 128) ∧
    (Given s h 0x0601 [] → (∀ w ∈ s.host.waits, w.kind ≠ .event) →
      (∀ e r, s.log.events = e :: r → ∃ u, exec (.eventWait h) s = .next u ∧ Replies s u h 0x0601 0 0 e ∧ u.log.events = r) ∧
      (s.log.events = [] → ∃ u w, exec (.eventWait h) s = .next u ∧ u.host.waits = s.host.waits ++ [w] ∧ w.kind = .event ∧
        w.hdr = h ∧ u.host.out = s.host.out)) ∧
    (∀ (buf len : Nat) (idx : BitVec 32), Given s h 0x0602 [(8, 8, buf), (16, 4, len), (20, 4, idx.toNat)] →
      let l := (s.log.ordered.filter fun r => decide (idx.toNat ≤ r.index.toNat)).take (len / 64)
      ∃ u o r, exec (.logRead h buf len idx) s = .next u ∧ Replies s u h 0x0602 0 0 r ∧ (r.extractLsb' 0 32).toNat = l.length ∧
        u.host.out = s.host.out ++ o ∧ (l ≠ [] → .write buf (l.flatMap fun r => leBytes 64 (recordBytes r).toNat) false ∈ o) ∧
        u.log = s.log) ∧
    (∀ idx : BitVec 32, Given s h 0x0603 [(0, 4, idx.toNat)] → ∃ u, exec (.logClear h idx) s = .next u ∧ Replies s u h 0x0603 0 0 0 ∧
      u.log.errs = s.log.errs.filter (fun r => decide (idx < r.index)) ∧
      u.log.alarms = s.log.alarms.filter (fun r => decide (idx < r.index))) ∧
    (∀ t : TileId, Given s h 0x0604 [(0, 2, t.toNat)] → s.validTile t = true → (s.cluster (clusterOf t)).pend = none →
      (s.cluster (clusterOf t)).active = none → (s.cluster (clusterOf t)).spareFailed = false → ∃ u r,
      exec (.repair h (t.zeroExtend 16)) s = .next u ∧ Replies s u h 0x0604 0 0 r ∧
        ((u.cluster (clusterOf t)).pend = some (t.extractLsb' 0 4) ∨ (u.cluster (clusterOf t)).active = some (t.extractLsb' 0 4)) ∧
        (s.log.errs.length < 7168 → ∃ r ∈ u.log.errs, r.code = 0x0301)) ∧
    (Given s h 0x0801 [(0, 4, 0x200000)] → s.host.ready = true → ∃ u, exec (.regRead h 0x200000) s = .next u ∧
      Replies s u h 0x0801 0 0 (s.power.cap.zeroExtend 128)) ∧
    (∀ v : Word32, Given s h 0x0802 [(0, 4, 0x200000), (4, 4, v.toNat)] → s.host.ready = true → ∃ u,
      exec (.regWrite h 0x200000 v) s = .next u ∧ Replies s u h 0x0802 0 0 0 ∧
      u.power.cap.toNat = min 2200 (max 1000 (v.extractLsb' 0 12).toNat))

/-- The memory commands: the table pool takes zeroed tables and every region's root; MAP enters a page's leaf in the tables and changes no
other byte; UNMAP removes a leaf and asks every region to invalidate; TRANSLATE names the fault of an address that has no
translation; RESUME lets suspended stream instructions go on, their pages to be translated anew; FILL writes its bytes and no others and
replies how many; COPY from host memory reads its source by PCIe, and the completion writes the bytes and replies
(R324, R326–R329, R331, R333, R334, R408, R424). -/
def Obligations.MemoryCommandsReply : Prop :=
  ∀ (s : State) (h : CmdHdr), s.memory.intlvBusy = false → (∀ m, m < 8 → s.domainOn (162 + m) = true) →
    let mem (u : State) (p : Nat) : Byte := SMap.get 0 u.memory.bytes p
    (∀ base len, Given s h 0x0101 [(8, 8, base), (16, 8, len)] → s.anyLoaded = false → base % 32768 = 0 → base + len ≤ s.capacity →
      32768 ≤ len → ∃ u, exec (.tablePool h base len) s = .next u ∧ Replies s u h 0x0101 0 0 (.ofNat 128 base) ∧
        (∀ i, i < 32768 → mem u (base + i) = 0) ∧ (∀ p, p < base ∨ base + 32768 ≤ p → mem u p = mem s p) ∧
        ∀ g, g < 16 → (u.region g).rootEn = true ∧
          (u.region g).xlatRootHi.toNat * 2 ^ 32 + (u.region g).xlatRootLo.toNat = base % 2 ^ 41 + 1) ∧
    (∀ p : MapParams, Given s h 0x0102 [(0, 2, p.asid.toNat), (2, 1, p.psize.toNat), (3, 1, p.perm.toNat), (8, 8, p.va), (16, 8, p.pa),
        (24, 8, p.len)] → p.psize = 2 → p.len = 2 ^ 30 → p.va % 2 ^ 30 = 0 → p.va + p.len ≤ 2 ^ 57 → p.pa % 2 ^ 30 = 0 →
      p.pa + p.len ≤ 2 ^ 56 → s.host.poolLen ≠ 0 → s.host.poolUsed ≤ s.host.poolLen →
      let e0 := s.getEntry (s.host.poolBase + 8 * p.asid.toNat)
      let e4 := s.getEntry ((e0.extractLsb' 12 29).toNat * 4096 + 8 * levelIndex 4 p.va)
      let e3 := s.getEntry ((e4.extractLsb' 8 33).toNat * 256 + 8 * levelIndex 3 p.va)
      let a := (e3.extractLsb' 8 33).toNat * 256 + 8 * levelIndex 2 p.va
      e0.getLsbD 0 = true → e4.getLsbD 0 = true → pteLeaf e4 = false → e3.getLsbD 0 = true → pteLeaf e3 = false →
      ((s.getEntry a).getLsbD 0 = false → ∃ u, exec (.map h p) s = .next u ∧ Replies s u h 0x0102 0 0 1 ∧
        (∀ i, i < 8 → mem u (a + i) = BitVec.ofNat 8 ((p.pa + 3 + 4 * (p.perm.extractLsb' 0 2).toNat +
          32 * (p.perm.extractLsb' 2 1).toNat) / 256 ^ i)) ∧
        (∀ q, q < a ∨ a + 8 ≤ q → mem u q = mem s q)) ∧
      ((s.getEntry a).getLsbD 0 = true → ∃ u, exec (.map h p) s = .next u ∧ Replies s u h 0x0102 0xC 0 0 ∧
        u.memory.bytes = s.memory.bytes)) ∧
    (∀ (asid : BitVec 16) (va a : Nat), Given s h 0x0103 [(0, 2, asid.toNat), (8, 8, va), (24, 8, 65536)] → va % 65536 = 0 →
      va + 65536 ≤ 2 ^ 57 → s.leafOf asid.toNat va = some (0, a) → ∃ u w, exec (.unmap h asid va 65536) s = .next u ∧
        u.host.waits = s.host.waits ++ [w] ∧ w.kind = .unmap 1 ∧ w.hdr = h ∧ (∀ g, g < 16 → (u.region g).invDone = false) ∧
        (∀ i, i < 8 → mem u (a + i) = 0) ∧ (∀ q, q < a ∨ a + 8 ≤ q → mem u q = mem s q)) ∧
    (∀ (asid : BitVec 16) (va : Nat), Given s h 0x0104 [(0, 2, asid.toNat), (8, 8, va)] →
      (2 ^ 57 ≤ va → ∃ u, exec (.translate h asid va) s = .next u ∧
        Replies s u h 0x0104 0 0 (.ofNat 128 (1 * 2 ^ 80 + 15 * 2 ^ 88))) ∧
      (va < 2 ^ 57 → (s.region 0).rootEn = false → ∃ u, exec (.translate h asid va) s = .next u ∧
        Replies s u h 0x0104 0 0 (.ofNat 128 (2 * 2 ^ 80 + 15 * 2 ^ 88)))) ∧
    (∀ (t : TileId) (c : Bool) (mask : BitVec 32) (o : StreamOp), Given s h 0x0107 [(0, 2, t.toNat), (2, 1, if c then 1 else 0), (4, 4, mask.toNat)] →
      s.validTile t = true → o ∈ (s.ctx t c).stream → o.suspendedNow = true → mask.getLsbD o.slot = true → o.slot < 32 →
      ∃ u, exec (.resume h (t.zeroExtend 16) c mask) s = .next u ∧ Replies s u h 0x0107 0 0 0 ∧
        { o with phase := .running, pages := [] } ∈ (u.ctx t c).stream ∧ (u.ctx t c).regs = (s.ctx t c).regs) ∧
    (∀ (a len : Nat) (v : Word), Given s h 0x0106 [(8, 8, s.globalAddr a), (16, 8, v.toNat), (24, 8, len)] → len % 8 = 0 → 0 < len →
      a + len ≤ s.capacity → ∃ u, exec (.fill h (s.globalAddr a) v len) s = .next u ∧
        Replies s u h 0x0106 0 0 (.ofNat 128 (len + (2 ^ 64 - 1) * 2 ^ 64)) ∧
        (∀ i, i < len → mem u (a + i) = BitVec.ofNat 8 (v.toNat / 256 ^ (i % 8))) ∧
        (∀ p, p < a ∨ a + len ≤ p → mem u p = mem s p)) ∧
    (∀ a src len : Nat, Given s h 0x0105 [(0, 1, 1), (8, 8, src), (16, 8, s.globalAddr a), (24, 8, len)] → 0 < len →
      src % 4096 + len ≤ 4096 → a + len ≤ s.capacity → ∃ u, exec (.copy h true false src (s.globalAddr a) len) s = .next u ∧
        u.host.out = s.host.out ++ [.read s.memory.nextTx src len] ∧ u.memory.bytes = s.memory.bytes ∧
        ∃ j ∈ u.host.copies, j.hdr = h ∧ j.opcode = 0x0105 ∧ j.phase = 1 ∧ j.wait = [(s.memory.nextTx, none, 0, len)]) ∧
    (∀ (j : CopyJob) (tx : BitVec 32) (a : Nat) (data : List Byte), s.host.copies = [j] → j.hdr = h → j.opcode = 0x0105 → j.phase = 1 →
      j.wait = [(tx, none, 0, data.length)] → (∀ r ∈ s.memory.reqs, r.txid ≠ tx) → j.bytes.length = data.length →
      j.p.srcHost = true → j.p.dstHost = false → j.p.dst = s.globalAddr a → j.p.len = data.length → 0 < data.length →
      a + data.length ≤ s.capacity → (s.queue h.queue).state = .active → h.queue < 64 → (s.queue h.queue).sqHead < 4096 →
      s.host.power = .d0 → ∃ u, exec (.hostReadCompletion tx (some data) false) s = .next u ∧
        Replies s u h 0x0105 0 0 (.ofNat 128 (data.length + (2 ^ 64 - 1) * 2 ^ 64)) ∧
        (∀ i, i < data.length → mem u (a + i) = data.getD i 0) ∧
        (∀ p, p < a ∨ a + data.length ≤ p → mem u p = mem s p))

/-! ### Host commands over zones and groups (R253, R258–R262, R373, R378, R379, R384, R425–R427, R431) -/

/-- An image of one tile whose load meets every check on context A of a vacant tile (R425, R426, R431). -/
structure LoadsHere (s : State) (bytes : List Byte) (i : Image) (t : TileId) (sec : List Byte) : Prop where
  parsed : parseImage bytes = .ok i
  one : i.tiles = [(t.toNat, sec)]
  noSets : i.sets = []
  print : s.fingerprintDiff i = 0
  cluster : s.clusterBar t = none
  vacant : (s.tile t).vacant = true
  empty : s.members i.zone = []
  sound : (s.zone i.zone).aborted = false
  crossings : (s.region (regionOf t)).xcalValid = true
  proof : s.proofRun i [] = none
  domains : ∀ d ∈ placeDomains [t], s.domainOn d = true

/-- A load whose checks pass leaves the context LOADED at the image's entry, the boundary at its size and its section in the
partition, zeros behind it; a proof run changes nothing; a start makes LOADED members active from their entries with their
arguments; an unload empties the zone; a restore gives back the saved registers and partition (R62, R71, R243, R261, R425, R426, R431,
R499). -/
def Obligations.ProgramCommandsReply : Prop :=
  ∀ (s : State) (h : CmdHdr) (z : BitVec 3),
    (∀ (asid : BitVec 12) (bytes : List Byte) (i : Image) (t : TileId) (sec : List Byte), LoadsHere s bytes i t sec →
      (Given s h 0x0202 (loadFields 0 asid (.host bytes)) → ∃ u, exec (.load h 0 asid (.host bytes)) s = .next u ∧
        Replies s u h 0x0202 0 0 (.ofNat 128 (256 * i.zone.toNat)) ∧ (u.tile t).bound = i.own ∧
        (u.ctx t false).phase = .loaded ∧ (u.ctx t false).pc = .ofNat 64 i.entry ∧ (u.ctx t false).zone = i.zone ∧
        (u.ctx t false).asid = asid ∧ (∀ r, (u.ctx t false).reg r = 0) ∧
        (∀ k, k < i.own * 65536 → k < sec.length → SMap.get 0 (u.tile t).sp k = sec.getD k 0) ∧
        (∀ k, k < i.own * 65536 → sec.length ≤ k → SMap.get 0 (u.tile t).sp k = 0) ∧
        (∀ o, o ≠ t → u.tile o = s.tile o) ∧ (u.zone i.zone).job = asid.toNat ∧ (u.zone i.zone).started = false) ∧
      (Given s h 0x0201 (loadFields 0 asid (.host bytes)) → ∃ u, exec (.proof h 0 asid (.host bytes)) s = .next u ∧
        Replies s u h 0x0201 0 0 0 ∧ u.tiles = s.tiles ∧ u.zones = s.zones ∧ u.memory = s.memory)) ∧
    (∀ args : List Word, h.expert = false → args.length = 4 →
      let p : StartParams := { zone := z, guest := false, hostZone := 0, budget := none, args := args }
      Given s h 0x0203 (startFields p) → (s.zone z).aborted = false → (s.zone z).laneMask = 0 → (s.zone z).role = 0 →
      (s.zone z).bubble = none → (s.zone z).first = none → (∃ m ∈ s.members z, (s.ctx m.1 m.2).phase = .loaded) →
      ∃ u, exec (.start h p) s = .next u ∧ Replies s u h 0x0203 0 0 0 ∧ (u.zone z).started = true ∧
        ∀ m ∈ s.members z,
          let y := s.ctx m.1 m.2
          y.phase = .loaded → (s.tile m.1).active = none → (s.ctx m.1 (!m.2)).phase ≠ .loaded → y.saving = false →
          y.resetPend = false → y.halted = false → (u.ctx m.1 m.2).phase = .active ∧ (u.ctx m.1 m.2).started = true ∧
            (u.ctx m.1 m.2).pc = (if y.begun = true then y.pc else y.entry) ∧ (u.ctx m.1 m.2).regs = y.regs ∧
            ∀ k, k < 4 → SMap.get 0 (u.ctx m.1 m.2).args k = args.getD k 0) ∧
    (Given s h 0x0208 [(0, 1, z.toNat)] → (∀ m ∈ s.members z, (s.ctx m.1 m.2).phase ≠ .active) →
      ∃ u, exec (.unload h z) s = .next u ∧ Replies s u h 0x0208 0 0 0 ∧ ∀ m ∈ s.members z, (u.ctx m.1 m.2).phase = .empty) ∧
    (∀ (area : Nat) (a : SaveArea) (i : SavedCtx) (t : TileId), Given s h 0x0207 [(0, 1, 0), (8, 8, area)] →
      s.memory.intlvBusy = false → area < s.capacity → s.saveAt area = some a → a.items = [i] → i.tile = t → i.ctx.zone = a.zone →
      a.sysSize = s.host.sysSize → a.zoneMap = s.host.zoneMap → a.pair = none → a.mcCount = 0 → memWf i.sp = true →
      s.clusterBar t = none → (s.tile t).vacant = true → s.members a.zone = [] → (s.zone a.zone).aborted = false →
      (s.region (regionOf t)).xcalValid = true → (∀ m, m < 8 → s.domainOn (162 + m) = true) →
      (∀ d ∈ placeDomains [t], s.domainOn d = true) →
      ∃ u, exec (.restore h 0 area) s = .next u ∧ Replies s u h 0x0207 0 0 (.ofNat 128 (256 * a.zone.toNat)) ∧
        (u.ctx t false).phase = .loaded ∧ (u.ctx t false).regs = i.ctx.regs ∧ (u.ctx t false).pc = i.ctx.pc ∧
        (u.ctx t false).sig = i.ctx.sig ∧ (u.tile t).bound = i.own ∧
        ∀ p, p < i.own * 65536 → SMap.get 0 (u.tile t).sp p = SMap.get 0 i.sp p)

/-- STOP, YIELD and EVICT latch their requests for the zone's next barrier, a forced stop ends the members at once and aborts the zone,
and CANCEL drops what is latched; PAIR and UNPAIR make and end a pairing; PRIORITY puts a weight in force; the GROUP commands create,
delete, abort and sweep an external group; each replies, or waits for what it names (R253, R258, R259, R262, R308, R373, R378, R379, R384,
R424, R427). -/
def Obligations.ZoneCommandsReply : Prop :=
  ∀ (s : State) (h : CmdHdr) (z g : BitVec 3),
    let zn := s.zone z
    let latched (i : Instr) (k : ReqKind) : Prop := ∃ u r, exec i s = .next u ∧ r ∈ (u.zone z).reqs ∧ r.kind = k ∧ r.any = false ∧
      r.queue = h.queue ∧ r.seq = h.seq ∧ r.deadline.isSome = true ∧ u.tiles = s.tiles
    (s.members z ≠ [] → zn.aborted = false → (s.xgroup z).enabled = false →
      (Given s h 0x0204 [(0, 1, z.toNat), (1, 1, 0)] → latched (.stop h z false false) .stop) ∧
      (Given s h 0x0205 [(0, 1, z.toNat), (1, 1, 0)] → latched (.yield h z false) .yield) ∧
      (∀ area len, Given s h 0x0206 [(0, 1, z.toNat), (1, 1, 0), (8, 8, area), (16, 8, len)] → s.memory.intlvBusy = false →
        area + len ≤ s.capacity → s.saveNeed z ≤ len → (∀ m, m < 8 → s.domainOn (162 + m) = true) →
        latched (.evict h z false area len) (.evict area)) ∧
      (Given s h 0x0204 [(0, 1, z.toNat), (1, 1, 1)] → ∃ u, exec (.stop h z true false) s = .next u ∧ Replies s u h 0x0204 0 0 0 ∧
        (u.zone z).aborted = true ∧ (s.log.errs.length < 7168 → ∃ r ∈ u.log.errs, r.code = 0x010A) ∧
        ∀ m ∈ s.members z, (s.ctx m.1 m.2).phase.ended = false → s.inExchange m.1 m.2 = false → (u.ctx m.1 m.2).phase = .faulted)) ∧
    (Given s h 0x0209 [(0, 1, z.toNat)] → ∃ u, exec (.cancel h z) s = .next u ∧ (u.zone z).reqs = [] ∧
      Replies s u h 0x0209 0 0 (.ofNat 128 ((if zn.reqs.any (fun r => r.kind = .yield) then 1 else 0) +
        2 * (if zn.reqs.any (fun r => r.kind = .stop) then 1 else 0) +
        4 * (if zn.reqs.any (fun r => match r.kind with | .evict _ => true | _ => false) then 1 else 0)))) ∧
    (Given s h 0x0301 [(0, 1, z.toNat), (1, 1, g.toNat)] → h.expert = false →
      (s.pairOk z g = true → (∀ m ∈ s.members g, (s.ctx m.1 m.2).begun = false) → ∃ u, exec (.pair h z g none) s = .next u ∧
        Replies s u h 0x0301 0 0 0 ∧ (u.zone z).role = 1 ∧ (u.zone z).pair = some g ∧ (u.zone g).role = 2 ∧ (u.zone g).pair = some z ∧
        (u.zone g).budget = 500) ∧
      (s.pairOk z g = false → ∃ u, exec (.pair h z g none) s = .next u ∧ Replies s u h 0x0301 0x10B g.toNat 0 ∧ u.zones = s.zones)) ∧
    (Given s h 0x0302 [(0, 1, z.toNat)] → zn.role = 1 → zn.pair = some g → g ≠ z →
      (zn.bubble = none → ∃ u, exec (.unpair h z) s = .next u ∧ Replies s u h 0x0302 0 0 0 ∧ (u.zone z).role = 0 ∧
        (u.zone z).pair = none ∧ (u.zone g).role = 0 ∧ (u.zone g).pair = none) ∧
      (zn.bubble.isSome = true → ∃ u w, exec (.unpair h z) s = .next u ∧ u.host.waits = s.host.waits ++ [w] ∧ w.kind = .unpair z ∧
        w.deadline.isSome = true ∧ (u.zone z).pair = some g)) ∧
    (∀ (cls : Nat) (n : BitVec 8), Given s h 0x020A [(0, 1, cls), (1, 1, n.toNat)] → s.arb.busy = false →
      s.mapNamed h [(0, 1, cls), (1, 1, n.toNat)] false = true → n ≠ 0 → (∀ e ∈ s.arb.insts, e.2.owners = []) →
      let w := SMap.put 8 s.arb.nShadow cls (n.extractLsb' 0 7)
      (∀ k, k < 9 → Arb.badShadow { s.arb with nShadow := w } k = false) →
      ∃ u, exec (.priority h cls n none) s = .next u ∧ Replies s u h 0x020A 0 0 0 ∧ u.arb.nActive = w ∧
        u.arb.mapActive = s.arb.mapShadow ∧ u.arb.busy = false) ∧
    (∀ gid root : BitVec 16, Given s h 0x0303 [(0, 1, z.toNat), (2, 2, gid.toNat), (4, 2, root.toNat)] →
      root.extractLsb' 0 15 = s.fabric.devId → s.isTn6 s.fabric.devId.toNat = false → (∀ o, (s.xgroup o).enabled = false) → ∃ u, exec (.groupCreate h z gid root) s = .next u ∧
        Replies s u h 0x0303 0 0 0 ∧ (u.xgroup z).enabled = true ∧ (u.xgroup z).isRoot = true ∧ (u.xgroup z).gid = gid.toNat ∧
        (u.xgroup z).parent = none) ∧
    ((s.xgroup z).enabled = true →
      (Given s h 0x0304 [(0, 1, z.toNat)] → ∃ u, exec (.groupDelete h z) s = .next u ∧ Replies s u h 0x0304 0 0 0 ∧
        (u.xgroup z).enabled = false) ∧
      (Given s h 0x0305 [(0, 1, z.toNat)] → (s.xgroup z).state ≠ 3 → ∃ u, exec (.groupAbort h z) s = .next u ∧
        Replies s u h 0x0305 0 0 0 ∧ (u.xgroup z).state = 3 ∧ (u.xgroup z).cause = 4 ∧ (u.zone z).aborted = true) ∧
      (∀ e, Given s h 0x0306 [(0, 1, z.toNat)] → (s.xgroup z).state ≠ 3 → (s.xgroup z).isRoot = true → (s.xgroup z).calState ≠ 1 →
        (s.xgroup z).edges.find? (fun e => e.2.valid) = some e → ∃ u w, exec (.groupSweep h z) s = .next u ∧
        (u.xgroup z).calState = 1 ∧ u.host.waits = s.host.waits ++ [w] ∧ w.kind = .sweep z ∧ w.hdr = h))

/-! ### Resets, boot and the pins (R432–R453, R458, R493) -/

/-- Every context is EMPTY, with its registers at zero. -/
def AllEmpty (s : State) : Prop := ∀ t c, (s.ctx t c).phase = .empty ∧ ∀ r, (s.ctx t c).reg r = 0

/-- Context c of tile t is EMPTY, with its registers at zero, and the tile's scratchpad is as it was in s. -/
def Emptied (s u : State) (t : TileId) (c : Bool) : Prop :=
  (u.ctx t c).phase = .empty ∧ (∀ r, (u.ctx t c).reg r = 0) ∧ (u.tile t).sp = (s.tile t).sp

/-- Power-on reset clears everything but the fuses; PERST# and a warm reset empty every context and keep the log, and a warm reset keeps
package memory; a warm reset acts with its key only, is absorbed while one is under way, and waits for a power-good input that is low.
A power-good input that falls after step 1 fences the device. Region, tile and context resets act once armed, empty their contexts and, where no
substitution takes effect with that, keep the scratchpads; a context in an exchange waits for its end. Each sets its bit of CHIP_RESET_CAUSE. That a region or tile reset takes
effect in one event is the model's choice (assumption 57) (R432–R438, R450, R493). -/
def Obligations.ResetsClearAndKeep : Prop :=
  ∀ (s : State) (v : Word32),
    let noted (u : State) (b : Nat) : Prop := u.chip.cause.getLsbD b = true
    let keyed := v.extractLsb' 0 16 = 0xA5C3 ∧ v.getLsbD 31 = true
    let warm (i : Instr) (b : Nat) : Prop := ∃ u, exec i s = .next u ∧ AllEmpty u ∧ u.memory.bytes = s.memory.bytes ∧
      u.log.errs = s.log.errs ∧ u.host.ready = false ∧ u.chip.stage = 2 ∧ noted u b
    let absorbed (i : Instr) : Prop := ∃ u, exec i s = .next u ∧ noted u 8 ∧ u.tiles = s.tiles ∧ u.zones = s.zones ∧
      u.memory = s.memory ∧ u.log = s.log ∧ u.host.ready = s.host.ready
    let go := v.getLsbD 31 = true ∧ s.chip.keyArmed = true
    let t : TileId := v.extractLsb' 0 12
    let c := v.getLsbD 28
    (∃ u, exec .powerOnReset s = .next u ∧ AllEmpty u ∧ (∀ a, SMap.get 0 u.memory.bytes a = 0) ∧ u.log.errs = [] ∧
      u.fuses = s.fuses ∧ u.chip.powered = true ∧ u.chip.cause = 1 ∧ u.host.ready = false ∧ u.pending = s.pending) ∧
    (∃ u, exec .pgAonFall s = .next u ∧ AllEmpty u ∧ u.log.errs = [] ∧ u.fuses = s.fuses ∧ u.chip.powered = false ∧
      u.pending = s.pending) ∧
    (s.chip.perst = false → ∃ u, exec .perstAssert s = .next u ∧ AllEmpty u ∧ u.log.errs = s.log.errs ∧ u.power.energy = s.power.energy ∧
      u.chip.perst = true ∧ u.host.ready = false ∧ u.chip.stage = 1 ∧ noted u 1) ∧
    (s.chip.perst = true → exec .perstAssert s = .next s) ∧
    (∃ u, exec .perstDeassert s = .next u ∧ u.chip.perst = false ∧ u.tiles = s.tiles ∧ u.memory = s.memory ∧
      u.chip.stage = if s.chip.powered = true ∧ s.chip.allPg = true ∧ s.chip.stage = 1 then 2 else s.chip.stage) ∧
    (∀ n, 1 ≤ n → n ≤ 6 → n ∈ s.chip.pg →
      ∃ u, exec (.pgFall n) s = .next u ∧ u.chip.pg = s.chip.pg.filter (fun i => i ≠ n) ∧ u.tiles = s.tiles ∧
        (s.chip.powered = true → s.chip.stage ≠ 1 → u.log.fenced = true ∧
          (s.log.errs.length < 7168 → ∃ r ∈ u.log.errs, r.code = 0x0403 ∧ r.unit = n)) ∧
        (s.chip.powered = false ∨ s.chip.stage = 1 → u.log = s.log)) ∧
    (∀ n, 1 ≤ n → n ≤ 6 → n ∉ s.chip.pg →
      let all := { s.chip with pg := n :: s.chip.pg }.allPg
      ∃ u, exec (.pgInputRise n) s = .next u ∧ u.chip.pg = n :: s.chip.pg ∧
        (∀ k fab, s.chip.heldReset = some (k, fab) → all = true → k < 9 → AllEmpty u ∧ u.host.ready = false ∧
          u.log.errs = s.log.errs ∧ u.memory.bytes = s.memory.bytes ∧ noted u k) ∧
        (s.chip.heldReset = none → u.tiles = s.tiles ∧ u.chip.stage =
          if s.chip.powered = true ∧ s.chip.perst = false ∧ all = true ∧ s.chip.stage = 1 then 2 else s.chip.stage)) ∧
    (s.chip.powered = true → s.chip.stage = 1 → s.chip.allPg = false →
      exec .pgTimeout s = .next { s with chip := { s.chip with fail := 1, extTimeout := satInc s.chip.extTimeout } }) ∧
    (s.chip.powered = false ∨ s.chip.stage ≠ 1 ∨ s.chip.allPg = true → exec .pgTimeout s = .next s) ∧
    (s.inReset = false → s.chip.allPg = true →
      (keyed → warm (.warmReset v) 3) ∧ warm .hotReset 2 ∧ warm .functionLevelReset 2) ∧
    (s.inReset = true → (keyed → absorbed (.warmReset v)) ∧ absorbed .hotReset ∧ absorbed .functionLevelReset) ∧
    (s.inReset = false → s.chip.allPg = false → keyed →
      exec (.warmReset v) s = .next { s with chip := { s.chip with heldReset := some (3, v.getLsbD 30) } }) ∧
    (¬ keyed → exec (.warmReset v) s = .next s) ∧
    (exec (.resetKeyArm v) s = .next { s with chip :=
      { s.chip with keyArmed := s.chip.keyArmed || decide (v.extractLsb' 0 16 = 0xA5C3) } }) ∧
    (go → s.inReset = false →
      (∀ g, g < 16 → v.getLsbD g = true → ∃ u, exec (.regionReset v) s = .next u ∧ u.chip.keyArmed = false ∧ noted u 5 ∧
        ∀ o d, s.validTile o = true → regionOf o = g → (s.cluster (clusterOf o)).pend = none → Emptied s u o d) ∧
      (s.validTile t = true → ∃ u, exec (.tileReset v) s = .next u ∧ u.chip.keyArmed = false ∧ noted u 6 ∧
        ((s.cluster (clusterOf t)).pend = none → ∀ d, Emptied s u t d)) ∧
      (s.validTile t = true → (s.ctx t c).resetPend = false → ∃ u, exec (.contextReset v) s = .next u ∧
        u.chip.keyArmed = false ∧ noted u 7 ∧
        (s.inExchange t c = false → (s.cluster (clusterOf t)).pend = none → Emptied s u t c) ∧
        (s.inExchange t c = true → (u.ctx t c).resetPend = true ∧ (u.ctx t c).phase = (s.ctx t c).phase))) ∧
    (s.chip.keyArmed = false ∨ v.getLsbD 31 = false →
      exec (.regionReset v) s = .next s ∧ exec (.tileReset v) s = .next s ∧ exec (.contextReset v) s = .next s)

/-- The boot sequence takes firmware from slot 0 where its checks pass, and then trains memory, brings up the device and sets READY; it
stops at a failed self-test and at a stack that fails training; with no image it waits for the host, whose transfer it verifies. A slot of which a read has
failed four times is not tried again. Multifunction pins change function through parking, and wait for a transaction unless forced; reports
are checked against their ranges; the handshakes are retried and then given up (R439–R453). -/
def Obligations.BootAndPins : Prop :=
  ∀ (s : State) (v : Word32) (env : BootEnv) (img : List Byte) (n : Nat),
    let chip (f : Chip → Chip) : State := { s with chip := f s.chip }
    let up (u : State) (l : List Byte) : Prop := u.host.ready = true ∧ u.chip.stage = 9 ∧
      u.chip.fwVer = BitVec.ofNat 32 (fieldAt l 12 4) ∧ (∀ m, m < 8 → (u.stack m).trained = true) ∧ u.tiles = s.tiles
    let fresh := s.bootable = true ∧ s.chip.rcvState = 0 ∧ (s.chip.stage = 2 ∨ s.chip.stage = 3)
    let len := (v.extractLsb' 0 23).toNat
    let p := s.pin n
    let f : BitVec 4 := v.extractLsb' 0 4
    let filt : Pin := { p with filter := v.extractLsb' 12 8 }
    let told (u : State) (code unit : Nat) : Prop := ∃ a ∈ u.log.staged, a.code = code ∧ a.unit = unit
    let others (u : State) : Prop := ∀ o, o ∉ pinGroup p.func n → u.pin o = s.pin o
    let counted (u : State) : Prop := u.chip.extTimeout = satInc s.chip.extTimeout
    (fresh → env.selfTestOk = true → s.chip.warmBusy = false → s.chip.slot0 ≠ 2 → env.slot0 = some img → ∃ u, exec (.bootSequence env) s = .next u ∧
      (s.verifyImage img = 1 → env.hbmFail = none → up u img ∧ u.chip.source = 1) ∧
      (s.verifyImage img = 1 → ∀ m, env.hbmFail = some m → m < 8 → u.host.ready = false ∧ u.chip.stage = 5 ∧
        u.chip.fail = 3 ∧ u.chip.failUnit.toNat = m ∧ u.log.fenced = true) ∧
      (s.verifyImage img ≠ 1 → env.slot1 = none → u.host.ready = false ∧ u.chip.stage = 3 ∧ u.chip.source = 3 ∧ u.chip.rcvState = 1 ∧
        u.chip.slot0 = BitVec.ofNat 4 (s.verifyImage img))) ∧
    (fresh → env.selfTestOk = false → exec (.bootSequence env) s = .next (chip fun c => { c with stage := 2, fail := 2 })) ∧
    (fresh → env.selfTestOk = true → s.chip.warmBusy = false → env.slot0 = none → env.slot1 = none →
      ∃ u, exec (.bootSequence env) s = .next u ∧ u.host.ready = false ∧ u.chip.stage = 3 ∧ u.chip.source = 3 ∧ u.chip.rcvState = 1) ∧
    (s.bootable = true → s.chip.rcvState = 6 → s.chip.stage = 5 → s.chip.warmBusy = false → env.hbmFail = none →
      ∃ u, exec (.bootSequence env) s = .next u ∧ up u s.chip.rcvData) ∧
    (s.bootable = false → exec (.bootSequence env) s = .next s) ∧
    (n < 2 → fresh → s.chip.warmBusy = false → ∃ u, exec (.bootFlashReadTimeout n) s = .next u ∧ counted u ∧
      (SMap.get 0 s.chip.retries n < 3 → SMap.get 0 u.chip.retries n = SMap.get 0 s.chip.retries n + 1 ∧
        u.chip.slot0 = s.chip.slot0 ∧ u.chip.slot1 = s.chip.slot1) ∧
      (3 ≤ SMap.get 0 s.chip.retries n → (if n = 0 then u.chip.slot0 = 2 else u.chip.slot1 = 2))) ∧
    (s.inRecovery = true → 256 ≤ len → len ≤ 4194560 → exec (.recoveryBootStart v) s =
      .next (chip fun c => { c with rcvState := 2, rcvLen := len, rcvData := [] })) ∧
    (s.inRecovery = false ∨ len < 256 ∨ 4194560 < len → exec (.recoveryBootStart v) s = .next s) ∧
    (s.chip.rcvState = 2 →
      (s.chip.rcvData.length < s.chip.rcvLen → exec (.recoveryBootData v) s =
        .next (chip fun c => { c with rcvData := (c.rcvData ++ leBytes 4 v.toNat).take c.rcvLen })) ∧
      (v.getLsbD 31 = false → exec (.recoveryBootDone v) s = .next (chip fun c =>
        if s.verifyImage c.rcvData = 1 then { c with rcvState := 6, stage := 5 } else { c with rcvState := 4 })) ∧
      (exec .recoveryTransferStall s = .next (chip fun c =>
        { c with rcvState := 5, rcvData := [], extTimeout := satInc c.extTimeout }))) ∧
    (n < 24 → f.toNat ≤ 8 → ∀ busy,
      let inUse := busy = true ∧ hasTransactions p.func = true ∧ p.parked = none
      (f = p.func → p.want = none → ∃ u, exec (.mfpSelect n v busy) s = .next u ∧ u.pin n = filt ∧ ∀ o, o ≠ n → u.pin o = s.pin o) ∧
      (f ≠ p.func → inUse → v.getLsbD 30 = false → ∃ u, exec (.mfpSelect n v busy) s = .next u ∧
        u.pin n = { filt with want := some f } ∧ ∀ o, o ≠ n → u.pin o = s.pin o) ∧
      (f ≠ p.func → ¬ inUse ∨ v.getLsbD 30 = true → ∃ u, exec (.mfpSelect n v busy) s = .next u ∧ (u.pin n).func = f ∧
        (u.pin n).parked = some s.time ∧ (u.pin n).want = none ∧ others u)) ∧
    (n < 24 → (∀ g, p.want = some g → ∃ u, exec (.mfpPendingSwitch n) s = .next u ∧ (u.pin n).func = g ∧
        (u.pin n).parked = some s.time ∧ (u.pin n).want = none ∧ others u) ∧
      (p.want = none → exec (.mfpPendingSwitch n) s = .next s) ∧
      ((∀ m ∈ pinGroup p.func n, (s.pin m).func = p.func ∧ s.parkDone m = true) → ∃ u, exec (.mfpParkEnd n) s = .next u ∧ others u ∧
        ∀ m ∈ pinGroup p.func n, u.pin m = { s.pin m with parked := none, startAt := some s.time, busClear := false }) ∧
      (s.parkDone n = false → exec (.mfpParkEnd n) s = .next s) ∧
      ∀ level, (p.startAt = none → ∃ u, exec (.inputFilterChange n level) s = .next u ∧ u.pin n = { p with level := level } ∧
          ∀ o, o ≠ n → u.pin o = s.pin o) ∧
        (∀ t, p.startAt = some t → (s.time - t).toNat < p.filter.toNat → exec (.inputFilterChange n level) s = .next s)) ∧
    (exec (.extFaultClear v) s = .next (chip fun c => { c with extRange := 0, extTimeout := 0 })) ∧
    (∀ r : ExtReport,
      (r.row = 3 → 0 ≤ r.value → 4 * r.value ≤ 5 * r.ref → exec (.regulatorReport r) s = .next s) ∧
      (r.row = 3 → r.value < 0 ∨ 5 * r.ref < 4 * r.value → ∃ u, exec (.regulatorReport r) s = .next u ∧
        u.chip.extRange = satInc s.chip.extRange ∧ told u 0x0407 r.unit ∧ u.power = s.power) ∧
      (r.row = 2 → r.unit < 2 →
        let set : Int := (s.dieTherm r.unit).vcore.toNat
        9 * set ≤ 10 * r.value → 10 * r.value ≤ 11 * set → r.value - set ≤ 10 → set - r.value ≤ 10 →
        ∃ u, exec (.regulatorReport r) s = .next u ∧ (u.dieTherm r.unit).vconfirmed = (s.dieTherm r.unit).vcore ∧
          (u.dieTherm r.unit).vcore = (s.dieTherm r.unit).vcore) ∧
      (r.row = 5 → 30000 < r.value → ∃ u, exec (.regulatorReport r) s = .next u ∧ told u 0x0407 r.unit ∧ told u 0x0409 r.unit)) ∧
    (∃ u, exec (.pmbusTimeout n) s = .next u ∧ counted u ∧ u.chip.busClears = s.chip.busClears ++ [12] ∧
      (SMap.get 0 s.chip.retries (16 + n) < 3 → SMap.get 0 u.chip.retries (16 + n) = SMap.get 0 s.chip.retries (16 + n) + 1 ∧
        u.chip.unresponsive = s.chip.unresponsive) ∧
      (3 ≤ SMap.get 0 s.chip.retries (16 + n) → n ∈ u.chip.unresponsive ∧ told u 0x0408 n)) ∧
    (n < 12 → ∃ u, exec (.smbusTimeout n) s = .next u ∧ counted u ∧ u.chip.busClears = s.chip.busClears ++ [n] ∧
      ∀ g, (s.pin (2 * n)).want = some g → (u.pin (2 * n)).func = g) ∧
    (n < 6 → ∃ u, exec (.spiTimeout n) s = .next u ∧ counted u ∧ u.chip.busClears = s.chip.busClears ∧
      ∀ g, (s.pin (4 * n)).want = some g → (u.pin (4 * n)).func = g) ∧
    (∃ u, exec .recordAreaFlashTimeout s = .next u ∧ counted u ∧
      (SMap.get 0 s.chip.retries 2 < 3 → SMap.get 0 u.chip.retries 2 = SMap.get 0 s.chip.retries 2 + 1) ∧
      (3 ≤ SMap.get 0 s.chip.retries 2 → SMap.get 0 u.chip.retries 2 = 0 ∧ told u 0x0408 0))

/-! ### Errors and recovery (R29, R455–R459, R466, R467, R500, R501) -/

/-- A lockstep mismatch is recorded and resets the device; a parity error is recorded and stops the context whose work read it, one in an
exchange at its end. A handler that ends well closes its window, a tile's having emptied both contexts and a cluster's those of all its
tiles; a tile that does not pass its test is replaced, a spare that does not is failed; one that overruns hands over to the next level,
recorded where the cluster controller is silent, and a stop that overruns resets its context. The chip's handler waits while the management
bus is held. Alarms reach the log in the order they were staged, and a write clears the count of refused
accesses. With no such window, stop or alarm nothing happens (R29, R34, R264, R311, R454–R459, R466, R467, R500, R501). -/
def Obligations.ErrorsAreRecordedAndRecovered : Prop :=
  ∀ (s : State) (t : TileId) (c : Bool) (hd : HandlerId) (v : Word32),
    let room := s.log.errs.length < 7168
    let logged (u : State) (code : Nat) (absorbed : Bool) : Prop := room → ∃ r ∈ u.log.errs, r.code = code ∧ r.cls = 1 ∧ r.absorbed = absorbed
    let closed (u : State) (level unit : Nat) : Prop := u.windowAt level unit = none
    (s.chip.powered = true → s.chip.stage ≠ 1 → s.inReset = false → s.chip.allPg = true →
      ∃ u w, exec .lockstepMismatch s = .next u ∧ logged u 0x0401 false ∧ AllEmpty u ∧ u.host.ready = false ∧
        u.chip.cause.getLsbD 4 = true ∧ u.memory.bytes = s.memory.bytes ∧ u.log.windows = [w] ∧ w.level = 3 ∧ w.action = 6) ∧
    (s.chip.powered = true → s.chip.stage ≠ 1 → s.inReset = true →
      ∃ u, exec .lockstepMismatch s = .next u ∧ logged u 0x0401 true ∧ u.tiles = s.tiles ∧ u.chip = s.chip) ∧
    (s.chip.powered = false ∨ s.chip.stage = 1 → exec .lockstepMismatch s = .next s) ∧
    (∀ eng store, s.validTile t = true → store = 0 ∨ store = 5 ∨ (1 ≤ store ∧ store ≤ 4 ∧ (s.tile t).active = some c) →
      (s.ctx t c).phase = .active ∨ (s.ctx t c).phase = .loaded →
      (s.inExchange t c = true → ∃ u, exec (.engineParityError t c eng store) s = .next u ∧ (u.ctx t c).phase = (s.ctx t c).phase ∧
        (u.ctx t c).stopPend.isSome = true ∧ (room → ∃ r ∈ u.log.errs, r.code = 0x0202 ∧ r.unit = t.toNat)) ∧
      (s.inExchange t c = false →
      ∃ u, exec (.engineParityError t c eng store) s = .next u ∧ (u.ctx t c).phase = .faulted ∧ (u.ctx t c).regs = (s.ctx t c).regs ∧
        (u.ctx t c).pc = (s.ctx t c).pc ∧ (u.tile t).sp = (s.tile t).sp ∧
        (room → ∃ r ∈ u.log.errs, r.code = 0x0202 ∧ r.cls = 1 ∧ r.level = 0 ∧ r.unit = t.toNat))) ∧
    (∀ (w : Window) (ok spare : Bool), s.windowAt hd.level hd.unit = some w →
      let k := clusterOf w.tile
      (hd.level = 0 → ok = true → ∃ u, exec (.recoveryActionDone hd ok spare) s = .next u ∧ closed u 0 hd.unit ∧ u.tiles = s.tiles ∧
        (w.program = false → room → ∃ r ∈ u.log.errs, r.code = 0x0601 ∧ r.cls = 3 ∧ r.level = 0 ∧ r.unit = hd.unit)) ∧
      (hd.level = 1 → s.validTile w.tile = true → (s.cluster k).pend = none →
        ∃ u, exec (.recoveryActionDone hd ok spare) s = .next u ∧ closed u 1 hd.unit ∧ u.chip.cause.getLsbD 6 = true ∧
          (ok = true → ∀ d, Emptied s u w.tile d) ∧
          (ok = false → (s.cluster k).active = none → (s.cluster k).spareFailed = false →
            (u.cluster k).pend = some (w.tile.extractLsb' 0 4) ∨ (u.cluster k).active = some (w.tile.extractLsb' 0 4))) ∧
      (hd.level = 2 → ok = true → (s.cluster k).pend = none → ∃ u, exec (.recoveryActionDone hd ok spare) s = .next u ∧
        closed u 2 hd.unit ∧ u.chip.cause.getLsbD 6 = true ∧ (∀ o d, clusterOf o = k → Emptied s u o d) ∧
        (spare = false → (s.cluster k).active = none → (u.cluster k).spareFailed = true)) ∧
      (hd.level = 3 → w.action ≠ 6 → ok = true → s.busHeld = false → ∃ u, exec (.recoveryActionDone hd ok spare) s = .next u ∧
        closed u 3 hd.unit ∧ u.chip.cause.getLsbD 5 = true) ∧
      (hd.level = 3 → s.busHeld = true → exec (.recoveryActionDone hd ok spare) s = .next s) ∧
      (hd.level = 0 → w.program = true → exec (.recoveryWindowTimeout hd spare) s = .next s) ∧
      (hd.level = 1 → room → ∃ u r, exec (.recoveryWindowTimeout hd true) s = .next u ∧ r ∈ u.log.errs ∧ r.code = 0x0304) ∧
      (hd.level = 0 → w.program = false → s.windowAt 1 (16 * clusterOf w.tile) = none →
        ∃ u w', exec (.recoveryWindowTimeout hd spare) s = .next u ∧ u.windowAt 1 (16 * clusterOf w.tile) = some w' ∧ w'.action = 3 ∧
          w'.tile = w.tile ∧ w'.rec1 = w.rec1 ∧ w'.opened = s.time)) ∧
    (s.windowAt hd.level hd.unit = none → ∀ ok spare, exec (.recoveryWindowTimeout hd ok) s = .next s ∧
      exec (.recoveryActionDone hd ok spare) s = .next s) ∧
    (∀ w, s.windowAt 0 t.toNat = some w → w.ctx = c → w.action = 1 → ∃ u, exec (.quiesceTimeout t c) s = .next u ∧ logged u 0x0203 false ∧
      u.chip.cause.getLsbD 7 = true ∧
      (s.inExchange t c = false → (s.cluster (clusterOf t)).pend = none → Emptied s u t c) ∧
      (s.inExchange t c = true → (u.ctx t c).resetPend = true)) ∧
    (s.windowAt 0 t.toNat = none → exec (.quiesceTimeout t c) s = .next s) ∧
    (∀ a rest, s.log.staged = a :: rest → ∃ u, exec .alarmDelivery s = .next u ∧ u.log.staged = rest ∧ u.log.errs = s.log.errs ∧
      ∃ r ∈ u.log.alarms, r.code = a.code) ∧
    (s.log.staged = [] → exec .alarmDelivery s = .next s) ∧
    (exec (.rasHosterrClear v) s = .next { s with log := { s.log with hostErr := 0 } })

/-! ### Debug and trace (R424, R468–R485) -/

/-- The debug commands of the host halt, run and step contexts; read and write scratchpad, registers and vector lanes; show a ring and the
tile's counters and stream slots; and set breakpoints and watchpoints; each replies, a write whose host buffer cannot be read with BADADDR. A trace event is written at NEXT, after
the mark of what was lost; frozen, it is counted instead; a capture holds one entry for reading, and the counts clear by their own
writes (R424, R468, R474–R485). -/
def Obligations.DebugCommandsAndTrace : Prop :=
  ∀ (s : State) (h : CmdHdr) (tile : BitVec 16) (ctx : Bool) (buf : Nat), s.host.waits = [] →
    let t : TileId := tile.extractLsb' 0 12
    let x := s.tile t
    let y := s.ctx t ctx
    let b := if ctx = true then 1 else 0
    let wrote (u : State) (l : List Byte) : Prop := HostOut.write buf l false ∈ u.host.out
    (∀ scope : BitVec 3, scope.toNat ≤ 4 → s.tileOk tile = true →
      let m := s.scopeCtxs (scopeOf scope t (tile.extractLsb' 0 4).toNat ctx)
      (Given s h 0x0701 [(0, 1, scope.toNat), (2, 2, tile.toNat), (4, 1, b)] →
        (∀ e ∈ m, s.inExchange e.1 e.2 = false ∧ (s.ctx e.1 e.2).haltPend = false) →
        ∃ u, exec (.halt h scope tile ctx) s = .next u ∧ Replies s u h 0x0701 0 0 0 ∧
          ∀ e ∈ m, u.ctx e.1 e.2 = { s.ctx e.1 e.2 with halted := true, steps := 0 }) ∧
      (Given s h 0x0702 [(0, 1, scope.toNat), (2, 2, tile.toNat), (4, 1, b)] →
        ∃ u, exec (.run h scope tile ctx) s = .next u ∧ Replies s u h 0x0702 0 0 0 ∧
          ∀ e ∈ m, u.ctx e.1 e.2 = { s.ctx e.1 e.2 with halted := false, haltPend := false, steps := 0 })) ∧
    (∀ n : BitVec 32, s.tileOk tile = true → Given s h 0x0703 [(2, 2, tile.toNat), (4, 1, b), (8, 4, n.toNat)] →
      (y.halted = true → y.steps = 0 → n = 0 → ∃ u, exec (.step h tile ctx n) s = .next u ∧ u.tiles = s.tiles ∧
        Replies s u h 0x0703 0 0 (.ofNat 128 y.pc.toNat)) ∧
      (y.halted = true → y.steps = 0 → n ≠ 0 → y.phase = .active ∨ y.phase = .loaded → ∃ u w, exec (.step h tile ctx n) s = .next u ∧
        u.ctx t ctx = { y with steps := n.toNat } ∧ u.host.waits = [w] ∧ w.hdr = h ∧ w.kind = .step t ctx) ∧
      (y.halted = false → ∃ u, exec (.step h tile ctx n) s = .next u ∧ u.tiles = s.tiles ∧ Replies s u h 0x0703 0xC t.toNat 0)) ∧
    (s.tileOk tile = true → s.domainOn (domainOf t) = true →
      (∀ (addr len : Nat) (data : List Byte),
        let fields (sp : Nat) := [(0, 1, sp), (2, 2, tile.toNat), (4, 1, b), (8, 8, addr), (16, 8, buf), (24, 4, len)]
        let p (sp : BitVec 8) : DbgMem := { space := sp, tile := tile, ctx := ctx, addr := addr, buf := buf, len := len }
        let ue := (x.badWord addr len).isSome
        (addr + len ≤ 0x200000 → Given s h 0x0704 (fields 0) → ∃ u, exec (.memRead h (p 0)) s = .next u ∧
          wrote u (memRead x.sp addr len) ∧ (u.tile t).sp = x.sp ∧
          Replies s u h 0x0704 0 0 (.ofNat 128 (if ue = true then len + 2 ^ 32 else len))) ∧
        (0x200000 < addr + len → Given s h 0x0704 (fields 0) → ∃ u, exec (.memRead h (p 0)) s = .next u ∧ u.tiles = s.tiles ∧
          Replies s u h 0x0704 9 0 0) ∧
        (addr + len ≤ 0x200000 → len ≤ data.length → Given s h 0x0705 (fields 0) → ∃ u, exec (.memWrite h (p 0) (some data)) s = .next u ∧
          (∀ i, i < len → SMap.get 0 (u.tile t).sp (addr + i) = data.getD i 0) ∧
          (∀ q, (q < addr ∨ addr + len ≤ q) → SMap.get 0 (u.tile t).sp q = SMap.get 0 x.sp q) ∧
          (∀ d, u.ctx t d = s.ctx t d) ∧ Replies s u h 0x0705 0 0 (.ofNat 128 len)) ∧
        (Given s h 0x0705 (fields 0) → ∃ u, exec (.memWrite h (p 0) none) s = .next u ∧ u.tiles = s.tiles ∧
          Replies s u h 0x0705 9 0 0) ∧
        (len = 8 → ∀ r : RegNo, Given s h 0x0704 (fields 2) →
          let reads (v : Word) : Prop := ∃ u, exec (.memRead h (p 2)) s = .next u ∧ wrote u (leBytes 8 v.toNat) ∧ u.tiles = s.tiles ∧
            Replies s u h 0x0704 0 0 8
          (addr = 0x1000 + r.toNat → reads (y.reg r)) ∧ (addr = 0x1020 → reads y.pc) ∧
          (∀ k, k < 16 → addr = 0x1100 + 16 * r.toNat + k → reads ((x.vreg r).extractLsb' (64 * k) 64))) ∧
        (len = 8 → ∀ r : RegNo, Given s h 0x0705 (fields 2) → addr = 0x1000 + r.toNat →
          (y.phase ≠ .active ∨ (y.halted = true ∧ y.steps = 0) → ∃ u, exec (.memWrite h (p 2) (some data)) s = .next u ∧
            u.ctx t ctx = y.setReg r (.ofNat 64 (leNat (data.take 8))) ∧ (u.tile t).sp = x.sp ∧ Replies s u h 0x0705 0 0 8) ∧
          (y.phase = .active → y.halted = false → ∃ u, exec (.memWrite h (p 2) (some data)) s = .next u ∧ u.tiles = s.tiles ∧
            Replies s u h 0x0705 0xC tile.toNat 0))) ∧
      (∀ k, k ≤ 8 → Given s h 0x0706 [(2, 2, tile.toNat), (4, 1, b), (5, 1, k), (8, 8, buf)] →
        ∃ u l, exec (.ringRead h tile ctx k buf) s = .next u ∧ wrote u l ∧ l.length = 352 ∧ u.tiles = s.tiles ∧
          l.take 16 = leBytes 8 (y.cr (if k = 8 then 7 else 8 + k)).cfgWord ++ leBytes 8 (y.cr (if k = 8 then 7 else 8 + k)).ptrWord ∧
          Replies s u h 0x0706 0 0 352) ∧
      (∀ inst,
        (Given s h 0x0707 [(0, 1, 0), (2, 2, tile.toNat), (4, 4, inst), (8, 8, buf)] →
          ∃ u l, exec (.stateRead h 0 tile inst buf) s = .next u ∧ wrote u l ∧ l.length = 64 ∧ u.tiles = s.tiles ∧
            l.take 16 = leBytes 8 x.c0.sigCount ++ leBytes 8 x.c1.sigCount ∧ Replies s u h 0x0707 0 0 64) ∧
        (Given s h 0x0707 [(0, 1, 2), (2, 2, tile.toNat), (4, 4, inst), (8, 8, buf)] →
          ∃ u l, exec (.stateRead h 2 tile inst buf) s = .next u ∧ wrote u l ∧ l.length = 1024 ∧ u.tiles = s.tiles ∧
            Replies s u h 0x0707 0 0 1024)) ∧
      (∀ (k : Nat) (flags : BitVec 8) (addr : Word),
        Given s h 0x0708 [(2, 2, tile.toNat), (4, 1, k), (5, 1, flags.toNat), (8, 8, addr.toNat)] →
        let word : Word := (if flags.getLsbD 0 = true then 0xE000000000000000 else 0x6000000000000000) +
          (if k < 4 then addr &&& 0x1FFFF8 else 0x18C0000000000000 + (addr &&& 0x1FFFFF))
        ∃ u, exec (.breakSet h tile k flags addr) s = .next u ∧ Replies s u h 0x0708 0 0 0 ∧
          u.tile t = { x with haltOnBrk := flags.getLsbD 1, audit := flags.getLsbD 2,
                              ibp := if k < 4 then SMap.put 0 x.ibp k word else x.ibp,
                              wp := if k < 4 then x.wp else SMap.put 0 x.wp (k - 4) word })) ∧
    (∀ (g k : Nat) (e : TraceEvent) (rest : List TraceEvent) (v : Word32), g < 16 → k < 9 →
      let r := s.region g
      let q := s.cluster (16 * g + k)
      let entry (z : BitVec 256) (seq : BitVec 8) : Prop := z.extractLsb' 0 64 = e.time ∧ z.extractLsb' 64 12 = e.tile ∧
        z.getLsbD 76 = e.ctx ∧ (z.extractLsb' 80 8).toNat = e.type ∧ z.extractLsb' 88 8 = seq ∧ z.extractLsb' 96 160 = e.payload
      (q.trq = e :: rest → e.type < 256 → s.domainOn (144 + g) = true →
        (r.trcCtl.getLsbD 30 = false → q.trqLost = 0 → ∃ u, exec (.traceWrite g k) s = .next u ∧
          (u.cluster (16 * g + k)).trq = rest ∧ (u.region g).trcNext = r.trcNext + 1 ∧ (u.region g).trcSeq = r.trcSeq + 1 ∧
          entry (SMap.get 0 (u.region g).trcBuf r.trcNext.toNat) r.trcSeq ∧
          ∀ i, i ≠ r.trcNext.toNat → SMap.get 0 (u.region g).trcBuf i = SMap.get 0 r.trcBuf i) ∧
        (r.trcCtl.getLsbD 30 = false → 0 < q.trqLost → q.trqLost < 2 ^ 32 → ∃ u z, exec (.traceWrite g k) s = .next u ∧
          (u.cluster (16 * g + k)).trq = rest ∧ (u.cluster (16 * g + k)).trqLost = 0 ∧ (u.region g).trcNext = r.trcNext + 2 ∧
          SMap.get 0 (u.region g).trcBuf r.trcNext.toNat = z ∧ (z.extractLsb' 80 8).toNat = 7 ∧
          (z.extractLsb' 96 32).toNat = q.trqLost ∧ (z.extractLsb' 128 4).toNat = k ∧
          entry (SMap.get 0 (u.region g).trcBuf (r.trcNext + 1).toNat) (r.trcSeq + 1)) ∧
        (r.trcCtl.getLsbD 30 = true → ∃ u, exec (.traceWrite g k) s = .next u ∧ (u.cluster (16 * g + k)).trq = rest ∧
          (u.region g).trcBuf = r.trcBuf ∧ (u.region g).trcNext = r.trcNext ∧ (u.region g).trcLost = satInc r.trcLost)) ∧
      (q.trq = [] → exec (.traceWrite g k) s = .next s) ∧
      (s.portUp = true → s.host.ready = true → s.host.power = .d0 → ∃ u, exec (.traceReadCapture g) s = .next u ∧
        (u.region g).trcCapture = SMap.get 0 r.trcBuf r.trcRdIdx.toNat ∧ (u.region g).trcBuf = r.trcBuf ∧
        u.host.out = s.host.out ++ [.completion (leBytes 4 (SMap.get 0 r.trcBuf r.trcRdIdx.toNat % 4294967296#256).toNat) false]) ∧
      (v.getLsbD 31 = true → (∃ u, exec (.traceLostClear g v) s = .next u ∧ u.region g = { r with trcLost := 0 } ∧
          u = { s with regions := u.regions }) ∧
        ∃ u, exec (.traceQdropClear g k v) s = .next u ∧ u.cluster (16 * g + k) = { q with qdrop := 0 } ∧
          u = { s with clusters := u.clusters }))

/-- An operation of the debug port with these fields. -/
def PortOp (a : DbgAcc) (i : Instr) : Prop :=
  i = .dbgaccRegRead a ∨ i = .dbgaccRegWrite a ∨ i = .dbgaccRead8 a ∨ i = .dbgaccWrite8 a ∨ i = .dbgaccHalt a ∨ i = .dbgaccRun a ∨
  i = .dbgaccStep a ∨ i = .dbgaccHold ∨ i = .dbgaccRelease ∨ i = .dbgaccReserved

/-- The debug port runs its operations: reads and writes of registers and scratchpad, halts, runs and steps, the hold of the
management bus and its release; a reserved operation answers so, a disabled port refuses all, and a port that is busy ignores what
comes; a poll keeps the last result. A reset of the port releases its hold, and EXTEST fences the device (R311, R460, R470–R478). -/
def Obligations.DebugPortOperations : Prop :=
  ∀ (s : State) (a : DbgAcc),
    let t := a.tile
    let x := s.tile t
    let y := s.ctx t a.ctx
    let off := a.addr.toNat
    let at8 := off / 8 * 8
    let done (u : State) (status : BitVec 8) (data : Word) : Prop :=
      u.dbg.status = status ∧ u.dbg.data = data ∧ u.dbg.tapBusy = false ∧ u.dbg.op = none
    let tapOnly (u : State) : Prop := u = { s with dbg := u.dbg }
    (s.chip.powered = true → s.dbg.tapBusy = false → s.dbg.op = none →
      (s.dbg.tapEn = false → (∀ i, PortOp a i → ∃ u, exec i s = .next u ∧ done u 5 0 ∧ tapOnly u) ∧
        ∃ u, exec .dbgaccPoll s = .next u ∧ done u 5 0 ∧ tapOnly u) ∧
      (s.dbg.tapEn = true → exec .dbgaccPoll s = .next s) ∧
      (s.dbg.tapEn = true → s.arb.granted = false ∨ s.dbg.tapHold = true → s.host.waits = [] →
        (∃ u, exec .dbgaccHold s = .next u ∧ done u 0 0 ∧ u.dbg.tapHold = true ∧ u.arb.granted = false ∧ u.tiles = s.tiles) ∧
        (∃ u, exec .dbgaccRelease s = .next u ∧ done u 0 0 ∧ u.dbg.tapHold = false ∧ u.arb.granted = s.arb.hold ∧ u.tiles = s.tiles) ∧
        (∃ u, exec .dbgaccReserved s = .next u ∧ done u 6 0 ∧ tapOnly u) ∧
        (off = 0x20 → ∃ u, exec (.dbgaccRegRead a) s = .next u ∧ done u 0 (s.chip.cause.zeroExtend 64) ∧ tapOnly u) ∧
        (off % 4 ≠ 0 ∨ 0x4000000 ≤ off → (∃ u, exec (.dbgaccRegRead a) s = .next u ∧ done u 4 0 ∧ tapOnly u) ∧
          ∃ u, exec (.dbgaccRegWrite a) s = .next u ∧ done u 4 0 ∧ tapOnly u) ∧
        (off = 0x20 → ∃ u, exec (.dbgaccRegWrite a) s = .next u ∧ done u 0 0 ∧
          u.chip.cause = s.chip.cause &&& ~~~ (a.data.extractLsb' 0 9) ∧ u.tiles = s.tiles) ∧
        (a.space = 0 → s.validTile t = true → s.domainOn (domainOf t) = true →
          (at8 + 8 ≤ 0x200000 → (x.badWord at8 8 = none → ∃ u, exec (.dbgaccRead8 a) s = .next u ∧
              done u 0 (.ofNat 64 (leNat (memRead x.sp at8 8))) ∧ (u.tile t).sp = x.sp) ∧
            ∃ u, exec (.dbgaccWrite8 a) s = .next u ∧ done u 0 0 ∧
              (∀ i, i < 8 → SMap.get 0 (u.tile t).sp (at8 + i) = a.data.extractLsb' (8 * i) 8) ∧
              ∀ q, (q < at8 ∨ at8 + 8 ≤ q) → SMap.get 0 (u.tile t).sp q = SMap.get 0 x.sp q) ∧
          (0x200000 < at8 + 8 → (∃ u, exec (.dbgaccRead8 a) s = .next u ∧ done u 4 0 ∧ tapOnly u) ∧
            ∃ u, exec (.dbgaccWrite8 a) s = .next u ∧ done u 4 0 ∧ tapOnly u)) ∧
        (a.space = 2 → s.validTile t = true → s.domainOn (domainOf t) = true → ∀ r : RegNo, off = 0x1000 + r.toNat →
          (∃ u, exec (.dbgaccRead8 a) s = .next u ∧ done u 0 (y.reg r) ∧ tapOnly u) ∧
          (y.phase ≠ .active ∨ (y.halted = true ∧ y.steps = 0) → ∃ u, exec (.dbgaccWrite8 a) s = .next u ∧ done u 0 0 ∧
            u.ctx t a.ctx = y.setReg r a.data) ∧
          (y.phase = .active → y.halted = false → ∃ u, exec (.dbgaccWrite8 a) s = .next u ∧ done u 4 0 ∧ tapOnly u)) ∧
        (a.space = 0 → s.validTile t = true →
          (s.inExchange t a.ctx = false → y.haltPend = false → ∃ u, exec (.dbgaccHalt a) s = .next u ∧ done u 0 0 ∧
            u.ctx t a.ctx = { y with halted := true, steps := 0 }) ∧
          (∃ u, exec (.dbgaccRun a) s = .next u ∧ done u 0 0 ∧
            u.ctx t a.ctx = { y with halted := false, haltPend := false, steps := 0 })) ∧
        (s.validTile t = true → s.domainOn (domainOf t) = true → y.halted = true → y.steps = 0 →
          (off % 2 ^ 32 = 0 → ∃ u, exec (.dbgaccStep a) s = .next u ∧ done u 0 y.pc ∧ tapOnly u) ∧
          (0 < off % 2 ^ 32 → y.phase = .active ∨ y.phase = .loaded → ∃ u, exec (.dbgaccStep a) s = .next u ∧ u.dbg.tapBusy = true ∧
            u.ctx t a.ctx = { y with steps := off % 2 ^ 32 })))) ∧
    (s.dbg.tapBusy = true → s.dbg.op = none → exec .dbgaccPoll s = .next s ∧ ∀ i, PortOp a i → exec i s = .next s) ∧
    (∃ u, exec .tapReset s = .next u ∧ u.chip = { s.chip with tapIr := 0xFE, extest := false } ∧ u.dbg.tapHold = false ∧
      u.tiles = s.tiles ∧ u.zones = s.zones ∧ u.memory = s.memory ∧ u.log = s.log ∧
      (s.dbg.tapHold = true → u.dbg.abandoned = true ∧ u.arb.granted = s.arb.hold) ∧
      (s.dbg.tapHold = false → s.arb.insts = [] → s.arb.busy = false → u = { s with chip := u.chip })) ∧
    (∃ u, exec .tapExtest s = .next u ∧ u.chip.extest = true ∧ u.chip.tapIr = 0 ∧ u.log.fenced = true ∧ u.tiles = s.tiles)
end

