-- ==== Sys2Proof/Laws/Maps.lean ====
section
/-! SUPPORT. Laws of the sparse maps and of byte memories: reading after writing, what a write leaves alone, and the canonical form. -/

namespace Sys2Proof.Machine

/-- Keys rise strictly. -/
def SMap.sorted {α : Type} : SMap α → Bool
  | [] => true
  | [_] => true
  | (a, _) :: (b, w) :: r => decide (a < b) && SMap.sorted ((b, w) :: r)

theorem SMap.get_ins_same {α : Type} (d : α) (k : Nat) (v : α) (m : SMap α) (h : ∀ e ∈ m, e.1 ≠ k) :
    SMap.get d (SMap.ins k v m) k = v := by
  induction m with
  | nil => simp [SMap.ins, SMap.get]
  | cons e r ih =>
    obtain ⟨j, w⟩ := e
    have hj : k ≠ j := fun hk => h (j, w) (by simp) hk.symm
    unfold SMap.ins
    split
    · simp [SMap.get]
    · simp only [SMap.get, if_neg hj]
      exact ih fun e he => h e (by simp [he])

theorem SMap.get_ins_ne {α : Type} (d : α) (k k' : Nat) (v : α) (m : SMap α) (h : k' ≠ k) :
    SMap.get d (SMap.ins k v m) k' = SMap.get d m k' := by
  induction m with
  | nil => simp [SMap.ins, SMap.get, h]
  | cons e r ih =>
    obtain ⟨j, w⟩ := e
    unfold SMap.ins
    split
    · simp [SMap.get, h]
    · simp only [SMap.get, ih]

theorem SMap.get_filter_same {α : Type} (d : α) (k : Nat) (m : SMap α) :
    SMap.get d (m.filter fun e => decide (e.1 ≠ k)) k = d := by
  induction m with
  | nil => simp [SMap.get]
  | cons e r ih =>
    obtain ⟨j, w⟩ := e
    by_cases hj : j = k
    · simpa [List.filter_cons, hj] using ih
    · have hk : k ≠ j := fun h => hj h.symm
      simpa [List.filter_cons, hj, SMap.get, hk] using ih

theorem SMap.get_filter_ne {α : Type} (d : α) (k k' : Nat) (m : SMap α) (h : k' ≠ k) :
    SMap.get d (m.filter fun e => decide (e.1 ≠ k)) k' = SMap.get d m k' := by
  induction m with
  | nil => simp
  | cons e r ih =>
    obtain ⟨j, w⟩ := e
    by_cases hj : j = k
    · have hk : k' ≠ j := by rw [hj]; exact h
      simpa [List.filter_cons, hj, SMap.get, h] using ih
    · simp only [List.filter_cons, ne_eq, hj, not_false_eq_true, decide_true, if_true, SMap.get]
      simp only [ne_eq] at ih
      rw [ih]

/-- What was written is read. -/
@[simp] theorem SMap.get_put_same {α : Type} [DecidableEq α] (d : α) (m : SMap α) (k : Nat) (v : α) :
    SMap.get d (SMap.put d m k v) k = v := by
  unfold SMap.put
  split
  · rename_i h
    rw [h]
    exact SMap.get_filter_same d k m
  · exact SMap.get_ins_same d k v _ fun e he => by simpa using (List.mem_filter.mp he).2

/-- A write leaves every other unit alone. -/
@[simp] theorem SMap.get_put_ne {α : Type} [DecidableEq α] (d : α) (m : SMap α) (k k' : Nat) (v : α) (h : k' ≠ k) :
    SMap.get d (SMap.put d m k v) k' = SMap.get d m k' := by
  unfold SMap.put
  split
  · exact SMap.get_filter_ne d k k' m h
  · rw [SMap.get_ins_ne d k k' v _ h, SMap.get_filter_ne d k k' m h]

theorem SMap.get_put {α : Type} [DecidableEq α] (d : α) (m : SMap α) (k k' : Nat) (v : α) :
    SMap.get d (SMap.put d m k v) k' = if k' = k then v else SMap.get d m k' := by
  split
  · rename_i h
    rw [h]
    exact SMap.get_put_same d m k v
  · rename_i h
    exact SMap.get_put_ne d m k k' v h

theorem SMap.filter_ins {α : Type} (k : Nat) (v : α) (m : SMap α) :
    (SMap.ins k v m).filter (fun e => decide (e.1 ≠ k)) = m.filter fun e => decide (e.1 ≠ k) := by
  induction m with
  | nil => simp [SMap.ins]
  | cons e r ih =>
    obtain ⟨j, w⟩ := e
    unfold SMap.ins
    split
    · simp [List.filter_cons]
    · simp only [List.filter_cons]
      rw [ih]

/-- The last of two writes to one unit stands. -/
@[simp] theorem SMap.put_put {α : Type} [DecidableEq α] (d : α) (m : SMap α) (k : Nat) (v w : α) :
    SMap.put d (SMap.put d m k v) k w = SMap.put d m k w := by
  have h : (SMap.put d m k v).filter (fun e => decide (e.1 ≠ k)) = m.filter fun e => decide (e.1 ≠ k) := by
    unfold SMap.put
    split
    · simp [List.filter_filter]
    · rw [SMap.filter_ins]
      simp [List.filter_filter]
  rw [SMap.put.eq_1 d (SMap.put d m k v), h]
  rfl

/-! ### Byte memories -/

/-- The canonical form, entry by entry: no entry is zero and each lies below all later ones. -/
theorem memWf_cons (e : Host.Cell) (r : List Host.Cell) :
    memWf (e :: r) = true ↔ e.2 ≠ 0 ∧ (∀ f ∈ r, e.1 < f.1) ∧ memWf r = true := by
  induction r generalizing e with
  | nil => obtain ⟨a, v⟩ := e; simp [memWf]
  | cons f r ih =>
    obtain ⟨a, v⟩ := e
    obtain ⟨b, w⟩ := f
    have h := ih (b, w)
    simp only [memWf, Bool.and_eq_true, decide_eq_true_eq, List.mem_cons, forall_eq_or_imp] at h ⊢
    constructor
    · rintro ⟨⟨hv, hab⟩, hr⟩
      exact ⟨by simpa using hv, ⟨hab, fun x hx => Nat.lt_trans hab ((h.mp hr).2.1 x hx)⟩, hr⟩
    · rintro ⟨hv, ⟨hab, -⟩, hr⟩
      exact ⟨⟨by simpa using hv, hab⟩, hr⟩

theorem memWf_filter (p : Host.Cell → Bool) (m : List Host.Cell) (h : memWf m = true) : memWf (m.filter p) = true := by
  induction m with
  | nil => simpa using h
  | cons e r ih =>
    obtain ⟨hv, hlt, hr⟩ := (memWf_cons e r).mp h
    by_cases hp : p e = true
    · rw [List.filter_cons_of_pos hp]
      exact (memWf_cons _ _).mpr ⟨hv, fun f hf => hlt f (List.mem_filter.mp hf).1, ih hr⟩
    · rw [List.filter_cons_of_neg hp]
      exact ih hr

theorem SMap.mem_ins {α : Type} (k : Nat) (v : α) (m : SMap α) (e : Nat × α) (h : e ∈ SMap.ins k v m) :
    e = (k, v) ∨ e ∈ m := by
  induction m with
  | nil => simpa [SMap.ins] using h
  | cons f r ih =>
    obtain ⟨j, w⟩ := f
    unfold SMap.ins at h
    split at h
    · simpa using h
    · rcases List.mem_cons.mp h with h | h
      · exact .inr (by simp [h])
      · rcases ih h with h | h
        · exact .inl h
        · exact .inr (by simp [h])

theorem memWf_ins (k : Nat) (v : BitVec 8) (m : List Host.Cell) (h : memWf m = true) (hk : ∀ e ∈ m, e.1 ≠ k) (hv : v ≠ 0) :
    memWf (SMap.ins k v m) = true := by
  induction m with
  | nil => simpa [SMap.ins, memWf] using hv
  | cons e r ih =>
    obtain ⟨j, w⟩ := e
    obtain ⟨hw, hlt, hr⟩ := (memWf_cons (j, w) r).mp h
    unfold SMap.ins
    split
    · rename_i hkj
      refine (memWf_cons _ _).mpr ⟨hv, fun f hf => ?_, h⟩
      rcases List.mem_cons.mp hf with hf | hf
      · rw [hf]; exact hkj
      · exact Nat.lt_trans hkj (hlt f hf)
    · rename_i hkj
      have hne : j ≠ k := hk (j, w) (by simp)
      have hjk : j < k := Nat.lt_of_le_of_ne (Nat.le_of_not_lt hkj) hne
      refine (memWf_cons _ _).mpr ⟨hw, fun f hf => ?_, ih hr fun e he => hk e (by simp [he])⟩
      rcases SMap.mem_ins k v r f hf with hf | hf
      · rw [hf]; exact hjk
      · exact hlt f hf

/-- A write of one byte keeps the canonical form. -/
theorem memWf_put (m : List Host.Cell) (k : Nat) (v : BitVec 8) (h : memWf m = true) : memWf (SMap.put 0 m k v) = true := by
  unfold SMap.put
  split
  · exact memWf_filter _ m h
  · rename_i hv
    exact memWf_ins k v _ (memWf_filter _ m h) (fun e he => by simpa using (List.mem_filter.mp he).2) hv

/-- A write of bytes keeps the canonical form. -/
theorem memWf_write (m : List Host.Cell) (a : Nat) (l : List (BitVec 8)) (h : memWf m = true) : memWf (memWrite m a l) = true := by
  induction l generalizing m a with
  | nil => exact h
  | cons b r ih => exact ih _ _ (memWf_put m a b h)

/-- A write of bytes leaves every byte outside them alone. -/
theorem get_memWrite_outside (m : List Host.Cell) (a : Nat) (l : List (BitVec 8)) (x : Nat) (h : x < a ∨ a + l.length ≤ x) :
    SMap.get 0 (memWrite m a l) x = SMap.get 0 m x := by
  induction l generalizing m a with
  | nil => rfl
  | cons b r ih =>
    simp only [List.length_cons] at h
    rw [memWrite, ih _ _ (by omega), SMap.get_put_ne _ _ _ _ _ (by omega)]

/-- A byte inside a write reads as what was written there. -/
theorem get_memWrite_inside (m : List Host.Cell) (a : Nat) (l : List (BitVec 8)) (i : Nat) (h : i < l.length) :
    SMap.get 0 (memWrite m a l) (a + i) = l[i] := by
  induction l generalizing m a i with
  | nil => simp at h
  | cons b r ih =>
    cases i with
    | zero =>
      rw [memWrite, get_memWrite_outside _ _ _ _ (by omega)]
      simp
    | succ j =>
      have hj : j < r.length := by simpa using h
      have e : a + (j + 1) = (a + 1) + j := by omega
      rw [memWrite, e, ih _ _ _ hj]
      simp

/-- Reading back a whole write. -/
theorem memRead_memWrite (m : List Host.Cell) (a : Nat) (l : List (BitVec 8)) : memRead (memWrite m a l) a l.length = l := by
  have key : ∀ (n : Nat) (m' : List Host.Cell) (a' : Nat) (l' : List (BitVec 8)), l'.length = n →
      (∀ i, (hi : i < l'.length) → SMap.get 0 m' (a' + i) = l'[i]) → memRead m' a' n = l' := by
    intro n
    induction n with
    | zero => intro m' a' l' hl _; simp [memRead, List.length_eq_zero_iff.mp hl]
    | succ n ih =>
      intro m' a' l' hl hg
      cases l' with
      | nil => simp at hl
      | cons b r =>
        have h0 := hg 0 (by simp)
        simp only [Nat.add_zero, List.getElem_cons_zero] at h0
        rw [memRead, h0, ih m' (a' + 1) r (by simpa using hl) fun i hi => by
          have := hg (i + 1) (by simpa using hi)
          simpa [Nat.add_assoc, Nat.add_comm 1 i] using this]
  exact key l.length _ a l rfl fun i hi => get_memWrite_inside m a l i hi

/-- A read does not see a write beside it. -/
theorem memRead_memWrite_disjoint (m : List Host.Cell) (a : Nat) (l : List (BitVec 8)) (b n : Nat)
    (h : b + n ≤ a ∨ a + l.length ≤ b) : memRead (memWrite m a l) b n = memRead m b n := by
  induction n generalizing b with
  | zero => rfl
  | succ n ih => rw [memRead, memRead, get_memWrite_outside _ _ _ _ (by omega), ih _ (by omega)]

end Sys2Proof.Machine
end

