-- ==== Sys2Proof/Laws/State.lean ====
section
/-! SUPPORT. What each update of the state leaves alone, field by field, and what its own unit reads afterwards. -/

namespace Sys2Proof.Machine

/-! ### setTile -/

@[simp] theorem State.setTile_fuses (s : State) (t : TileId) (x : Tile) : (s.setTile t x).fuses = s.fuses := rfl
@[simp] theorem State.setTile_free (s : State) (t : TileId) (x : Tile) : (s.setTile t x).free = s.free := rfl
@[simp] theorem State.setTile_time (s : State) (t : TileId) (x : Tile) : (s.setTile t x).time = s.time := rfl
@[simp] theorem State.setTile_clusters (s : State) (t : TileId) (x : Tile) : (s.setTile t x).clusters = s.clusters := rfl
@[simp] theorem State.setTile_regions (s : State) (t : TileId) (x : Tile) : (s.setTile t x).regions = s.regions := rfl
@[simp] theorem State.setTile_zones (s : State) (t : TileId) (x : Tile) : (s.setTile t x).zones = s.zones := rfl
@[simp] theorem State.setTile_tracks (s : State) (t : TileId) (x : Tile) : (s.setTile t x).tracks = s.tracks := rfl
@[simp] theorem State.setTile_log (s : State) (t : TileId) (x : Tile) : (s.setTile t x).log = s.log := rfl
@[simp] theorem State.setTile_memory (s : State) (t : TileId) (x : Tile) : (s.setTile t x).memory = s.memory := rfl
@[simp] theorem State.setTile_host (s : State) (t : TileId) (x : Tile) : (s.setTile t x).host = s.host := rfl
@[simp] theorem State.setTile_arb (s : State) (t : TileId) (x : Tile) : (s.setTile t x).arb = s.arb := rfl
@[simp] theorem State.setTile_fabric (s : State) (t : TileId) (x : Tile) : (s.setTile t x).fabric = s.fabric := rfl
@[simp] theorem State.setTile_post (s : State) (t : TileId) (x : Tile) : (s.setTile t x).post = s.post := rfl
@[simp] theorem State.setTile_xgroups (s : State) (t : TileId) (x : Tile) : (s.setTile t x).xgroups = s.xgroups := rfl
@[simp] theorem State.setTile_power (s : State) (t : TileId) (x : Tile) : (s.setTile t x).power = s.power := rfl
@[simp] theorem State.setTile_chip (s : State) (t : TileId) (x : Tile) : (s.setTile t x).chip = s.chip := rfl
@[simp] theorem State.setTile_dbg (s : State) (t : TileId) (x : Tile) : (s.setTile t x).dbg = s.dbg := rfl
@[simp] theorem State.setTile_pending (s : State) (t : TileId) (x : Tile) : (s.setTile t x).pending = s.pending := rfl

/-! ### modTile -/

@[simp] theorem State.modTile_fuses (s : State) (t : TileId) (f : Tile → Tile) : (s.modTile t f).fuses = s.fuses := rfl
@[simp] theorem State.modTile_free (s : State) (t : TileId) (f : Tile → Tile) : (s.modTile t f).free = s.free := rfl
@[simp] theorem State.modTile_time (s : State) (t : TileId) (f : Tile → Tile) : (s.modTile t f).time = s.time := rfl
@[simp] theorem State.modTile_clusters (s : State) (t : TileId) (f : Tile → Tile) : (s.modTile t f).clusters = s.clusters := rfl
@[simp] theorem State.modTile_regions (s : State) (t : TileId) (f : Tile → Tile) : (s.modTile t f).regions = s.regions := rfl
@[simp] theorem State.modTile_zones (s : State) (t : TileId) (f : Tile → Tile) : (s.modTile t f).zones = s.zones := rfl
@[simp] theorem State.modTile_tracks (s : State) (t : TileId) (f : Tile → Tile) : (s.modTile t f).tracks = s.tracks := rfl
@[simp] theorem State.modTile_log (s : State) (t : TileId) (f : Tile → Tile) : (s.modTile t f).log = s.log := rfl
@[simp] theorem State.modTile_memory (s : State) (t : TileId) (f : Tile → Tile) : (s.modTile t f).memory = s.memory := rfl
@[simp] theorem State.modTile_host (s : State) (t : TileId) (f : Tile → Tile) : (s.modTile t f).host = s.host := rfl
@[simp] theorem State.modTile_arb (s : State) (t : TileId) (f : Tile → Tile) : (s.modTile t f).arb = s.arb := rfl
@[simp] theorem State.modTile_fabric (s : State) (t : TileId) (f : Tile → Tile) : (s.modTile t f).fabric = s.fabric := rfl
@[simp] theorem State.modTile_post (s : State) (t : TileId) (f : Tile → Tile) : (s.modTile t f).post = s.post := rfl
@[simp] theorem State.modTile_xgroups (s : State) (t : TileId) (f : Tile → Tile) : (s.modTile t f).xgroups = s.xgroups := rfl
@[simp] theorem State.modTile_power (s : State) (t : TileId) (f : Tile → Tile) : (s.modTile t f).power = s.power := rfl
@[simp] theorem State.modTile_chip (s : State) (t : TileId) (f : Tile → Tile) : (s.modTile t f).chip = s.chip := rfl
@[simp] theorem State.modTile_dbg (s : State) (t : TileId) (f : Tile → Tile) : (s.modTile t f).dbg = s.dbg := rfl
@[simp] theorem State.modTile_pending (s : State) (t : TileId) (f : Tile → Tile) : (s.modTile t f).pending = s.pending := rfl

/-! ### setCtx -/

@[simp] theorem State.setCtx_fuses (s : State) (t : TileId) (c : Bool) (y : Ctx) : (s.setCtx t c y).fuses = s.fuses := rfl
@[simp] theorem State.setCtx_free (s : State) (t : TileId) (c : Bool) (y : Ctx) : (s.setCtx t c y).free = s.free := rfl
@[simp] theorem State.setCtx_time (s : State) (t : TileId) (c : Bool) (y : Ctx) : (s.setCtx t c y).time = s.time := rfl
@[simp] theorem State.setCtx_clusters (s : State) (t : TileId) (c : Bool) (y : Ctx) : (s.setCtx t c y).clusters = s.clusters := rfl
@[simp] theorem State.setCtx_regions (s : State) (t : TileId) (c : Bool) (y : Ctx) : (s.setCtx t c y).regions = s.regions := rfl
@[simp] theorem State.setCtx_zones (s : State) (t : TileId) (c : Bool) (y : Ctx) : (s.setCtx t c y).zones = s.zones := rfl
@[simp] theorem State.setCtx_tracks (s : State) (t : TileId) (c : Bool) (y : Ctx) : (s.setCtx t c y).tracks = s.tracks := rfl
@[simp] theorem State.setCtx_log (s : State) (t : TileId) (c : Bool) (y : Ctx) : (s.setCtx t c y).log = s.log := rfl
@[simp] theorem State.setCtx_memory (s : State) (t : TileId) (c : Bool) (y : Ctx) : (s.setCtx t c y).memory = s.memory := rfl
@[simp] theorem State.setCtx_host (s : State) (t : TileId) (c : Bool) (y : Ctx) : (s.setCtx t c y).host = s.host := rfl
@[simp] theorem State.setCtx_arb (s : State) (t : TileId) (c : Bool) (y : Ctx) : (s.setCtx t c y).arb = s.arb := rfl
@[simp] theorem State.setCtx_fabric (s : State) (t : TileId) (c : Bool) (y : Ctx) : (s.setCtx t c y).fabric = s.fabric := rfl
@[simp] theorem State.setCtx_post (s : State) (t : TileId) (c : Bool) (y : Ctx) : (s.setCtx t c y).post = s.post := rfl
@[simp] theorem State.setCtx_xgroups (s : State) (t : TileId) (c : Bool) (y : Ctx) : (s.setCtx t c y).xgroups = s.xgroups := rfl
@[simp] theorem State.setCtx_power (s : State) (t : TileId) (c : Bool) (y : Ctx) : (s.setCtx t c y).power = s.power := rfl
@[simp] theorem State.setCtx_chip (s : State) (t : TileId) (c : Bool) (y : Ctx) : (s.setCtx t c y).chip = s.chip := rfl
@[simp] theorem State.setCtx_dbg (s : State) (t : TileId) (c : Bool) (y : Ctx) : (s.setCtx t c y).dbg = s.dbg := rfl
@[simp] theorem State.setCtx_pending (s : State) (t : TileId) (c : Bool) (y : Ctx) : (s.setCtx t c y).pending = s.pending := rfl

/-! ### modCtx -/

@[simp] theorem State.modCtx_fuses (s : State) (t : TileId) (c : Bool) (f : Ctx → Ctx) : (s.modCtx t c f).fuses = s.fuses := rfl
@[simp] theorem State.modCtx_free (s : State) (t : TileId) (c : Bool) (f : Ctx → Ctx) : (s.modCtx t c f).free = s.free := rfl
@[simp] theorem State.modCtx_time (s : State) (t : TileId) (c : Bool) (f : Ctx → Ctx) : (s.modCtx t c f).time = s.time := rfl
@[simp] theorem State.modCtx_clusters (s : State) (t : TileId) (c : Bool) (f : Ctx → Ctx) : (s.modCtx t c f).clusters = s.clusters := rfl
@[simp] theorem State.modCtx_regions (s : State) (t : TileId) (c : Bool) (f : Ctx → Ctx) : (s.modCtx t c f).regions = s.regions := rfl
@[simp] theorem State.modCtx_zones (s : State) (t : TileId) (c : Bool) (f : Ctx → Ctx) : (s.modCtx t c f).zones = s.zones := rfl
@[simp] theorem State.modCtx_tracks (s : State) (t : TileId) (c : Bool) (f : Ctx → Ctx) : (s.modCtx t c f).tracks = s.tracks := rfl
@[simp] theorem State.modCtx_log (s : State) (t : TileId) (c : Bool) (f : Ctx → Ctx) : (s.modCtx t c f).log = s.log := rfl
@[simp] theorem State.modCtx_memory (s : State) (t : TileId) (c : Bool) (f : Ctx → Ctx) : (s.modCtx t c f).memory = s.memory := rfl
@[simp] theorem State.modCtx_host (s : State) (t : TileId) (c : Bool) (f : Ctx → Ctx) : (s.modCtx t c f).host = s.host := rfl
@[simp] theorem State.modCtx_arb (s : State) (t : TileId) (c : Bool) (f : Ctx → Ctx) : (s.modCtx t c f).arb = s.arb := rfl
@[simp] theorem State.modCtx_fabric (s : State) (t : TileId) (c : Bool) (f : Ctx → Ctx) : (s.modCtx t c f).fabric = s.fabric := rfl
@[simp] theorem State.modCtx_post (s : State) (t : TileId) (c : Bool) (f : Ctx → Ctx) : (s.modCtx t c f).post = s.post := rfl
@[simp] theorem State.modCtx_xgroups (s : State) (t : TileId) (c : Bool) (f : Ctx → Ctx) : (s.modCtx t c f).xgroups = s.xgroups := rfl
@[simp] theorem State.modCtx_power (s : State) (t : TileId) (c : Bool) (f : Ctx → Ctx) : (s.modCtx t c f).power = s.power := rfl
@[simp] theorem State.modCtx_chip (s : State) (t : TileId) (c : Bool) (f : Ctx → Ctx) : (s.modCtx t c f).chip = s.chip := rfl
@[simp] theorem State.modCtx_dbg (s : State) (t : TileId) (c : Bool) (f : Ctx → Ctx) : (s.modCtx t c f).dbg = s.dbg := rfl
@[simp] theorem State.modCtx_pending (s : State) (t : TileId) (c : Bool) (f : Ctx → Ctx) : (s.modCtx t c f).pending = s.pending := rfl

/-! ### modCluster -/

@[simp] theorem State.modCluster_fuses (s : State) (i : Nat) (f : Cluster → Cluster) : (s.modCluster i f).fuses = s.fuses := rfl
@[simp] theorem State.modCluster_free (s : State) (i : Nat) (f : Cluster → Cluster) : (s.modCluster i f).free = s.free := rfl
@[simp] theorem State.modCluster_time (s : State) (i : Nat) (f : Cluster → Cluster) : (s.modCluster i f).time = s.time := rfl
@[simp] theorem State.modCluster_tiles (s : State) (i : Nat) (f : Cluster → Cluster) : (s.modCluster i f).tiles = s.tiles := rfl
@[simp] theorem State.modCluster_regions (s : State) (i : Nat) (f : Cluster → Cluster) : (s.modCluster i f).regions = s.regions := rfl
@[simp] theorem State.modCluster_zones (s : State) (i : Nat) (f : Cluster → Cluster) : (s.modCluster i f).zones = s.zones := rfl
@[simp] theorem State.modCluster_tracks (s : State) (i : Nat) (f : Cluster → Cluster) : (s.modCluster i f).tracks = s.tracks := rfl
@[simp] theorem State.modCluster_log (s : State) (i : Nat) (f : Cluster → Cluster) : (s.modCluster i f).log = s.log := rfl
@[simp] theorem State.modCluster_memory (s : State) (i : Nat) (f : Cluster → Cluster) : (s.modCluster i f).memory = s.memory := rfl
@[simp] theorem State.modCluster_host (s : State) (i : Nat) (f : Cluster → Cluster) : (s.modCluster i f).host = s.host := rfl
@[simp] theorem State.modCluster_arb (s : State) (i : Nat) (f : Cluster → Cluster) : (s.modCluster i f).arb = s.arb := rfl
@[simp] theorem State.modCluster_fabric (s : State) (i : Nat) (f : Cluster → Cluster) : (s.modCluster i f).fabric = s.fabric := rfl
@[simp] theorem State.modCluster_post (s : State) (i : Nat) (f : Cluster → Cluster) : (s.modCluster i f).post = s.post := rfl
@[simp] theorem State.modCluster_xgroups (s : State) (i : Nat) (f : Cluster → Cluster) : (s.modCluster i f).xgroups = s.xgroups := rfl
@[simp] theorem State.modCluster_power (s : State) (i : Nat) (f : Cluster → Cluster) : (s.modCluster i f).power = s.power := rfl
@[simp] theorem State.modCluster_chip (s : State) (i : Nat) (f : Cluster → Cluster) : (s.modCluster i f).chip = s.chip := rfl
@[simp] theorem State.modCluster_dbg (s : State) (i : Nat) (f : Cluster → Cluster) : (s.modCluster i f).dbg = s.dbg := rfl
@[simp] theorem State.modCluster_pending (s : State) (i : Nat) (f : Cluster → Cluster) : (s.modCluster i f).pending = s.pending := rfl

/-! ### modRegion -/

@[simp] theorem State.modRegion_fuses (s : State) (g : Nat) (f : Region → Region) : (s.modRegion g f).fuses = s.fuses := rfl
@[simp] theorem State.modRegion_free (s : State) (g : Nat) (f : Region → Region) : (s.modRegion g f).free = s.free := rfl
@[simp] theorem State.modRegion_time (s : State) (g : Nat) (f : Region → Region) : (s.modRegion g f).time = s.time := rfl
@[simp] theorem State.modRegion_tiles (s : State) (g : Nat) (f : Region → Region) : (s.modRegion g f).tiles = s.tiles := rfl
@[simp] theorem State.modRegion_clusters (s : State) (g : Nat) (f : Region → Region) : (s.modRegion g f).clusters = s.clusters := rfl
@[simp] theorem State.modRegion_zones (s : State) (g : Nat) (f : Region → Region) : (s.modRegion g f).zones = s.zones := rfl
@[simp] theorem State.modRegion_tracks (s : State) (g : Nat) (f : Region → Region) : (s.modRegion g f).tracks = s.tracks := rfl
@[simp] theorem State.modRegion_log (s : State) (g : Nat) (f : Region → Region) : (s.modRegion g f).log = s.log := rfl
@[simp] theorem State.modRegion_memory (s : State) (g : Nat) (f : Region → Region) : (s.modRegion g f).memory = s.memory := rfl
@[simp] theorem State.modRegion_host (s : State) (g : Nat) (f : Region → Region) : (s.modRegion g f).host = s.host := rfl
@[simp] theorem State.modRegion_arb (s : State) (g : Nat) (f : Region → Region) : (s.modRegion g f).arb = s.arb := rfl
@[simp] theorem State.modRegion_fabric (s : State) (g : Nat) (f : Region → Region) : (s.modRegion g f).fabric = s.fabric := rfl
@[simp] theorem State.modRegion_post (s : State) (g : Nat) (f : Region → Region) : (s.modRegion g f).post = s.post := rfl
@[simp] theorem State.modRegion_xgroups (s : State) (g : Nat) (f : Region → Region) : (s.modRegion g f).xgroups = s.xgroups := rfl
@[simp] theorem State.modRegion_power (s : State) (g : Nat) (f : Region → Region) : (s.modRegion g f).power = s.power := rfl
@[simp] theorem State.modRegion_chip (s : State) (g : Nat) (f : Region → Region) : (s.modRegion g f).chip = s.chip := rfl
@[simp] theorem State.modRegion_dbg (s : State) (g : Nat) (f : Region → Region) : (s.modRegion g f).dbg = s.dbg := rfl
@[simp] theorem State.modRegion_pending (s : State) (g : Nat) (f : Region → Region) : (s.modRegion g f).pending = s.pending := rfl

/-! ### modZone -/

@[simp] theorem State.modZone_fuses (s : State) (z : BitVec 3) (f : Zone → Zone) : (s.modZone z f).fuses = s.fuses := rfl
@[simp] theorem State.modZone_free (s : State) (z : BitVec 3) (f : Zone → Zone) : (s.modZone z f).free = s.free := rfl
@[simp] theorem State.modZone_time (s : State) (z : BitVec 3) (f : Zone → Zone) : (s.modZone z f).time = s.time := rfl
@[simp] theorem State.modZone_tiles (s : State) (z : BitVec 3) (f : Zone → Zone) : (s.modZone z f).tiles = s.tiles := rfl
@[simp] theorem State.modZone_clusters (s : State) (z : BitVec 3) (f : Zone → Zone) : (s.modZone z f).clusters = s.clusters := rfl
@[simp] theorem State.modZone_regions (s : State) (z : BitVec 3) (f : Zone → Zone) : (s.modZone z f).regions = s.regions := rfl
@[simp] theorem State.modZone_tracks (s : State) (z : BitVec 3) (f : Zone → Zone) : (s.modZone z f).tracks = s.tracks := rfl
@[simp] theorem State.modZone_log (s : State) (z : BitVec 3) (f : Zone → Zone) : (s.modZone z f).log = s.log := rfl
@[simp] theorem State.modZone_memory (s : State) (z : BitVec 3) (f : Zone → Zone) : (s.modZone z f).memory = s.memory := rfl
@[simp] theorem State.modZone_host (s : State) (z : BitVec 3) (f : Zone → Zone) : (s.modZone z f).host = s.host := rfl
@[simp] theorem State.modZone_arb (s : State) (z : BitVec 3) (f : Zone → Zone) : (s.modZone z f).arb = s.arb := rfl
@[simp] theorem State.modZone_fabric (s : State) (z : BitVec 3) (f : Zone → Zone) : (s.modZone z f).fabric = s.fabric := rfl
@[simp] theorem State.modZone_post (s : State) (z : BitVec 3) (f : Zone → Zone) : (s.modZone z f).post = s.post := rfl
@[simp] theorem State.modZone_xgroups (s : State) (z : BitVec 3) (f : Zone → Zone) : (s.modZone z f).xgroups = s.xgroups := rfl
@[simp] theorem State.modZone_power (s : State) (z : BitVec 3) (f : Zone → Zone) : (s.modZone z f).power = s.power := rfl
@[simp] theorem State.modZone_chip (s : State) (z : BitVec 3) (f : Zone → Zone) : (s.modZone z f).chip = s.chip := rfl
@[simp] theorem State.modZone_dbg (s : State) (z : BitVec 3) (f : Zone → Zone) : (s.modZone z f).dbg = s.dbg := rfl
@[simp] theorem State.modZone_pending (s : State) (z : BitVec 3) (f : Zone → Zone) : (s.modZone z f).pending = s.pending := rfl

/-! ### modXgroup -/

@[simp] theorem State.modXgroup_fuses (s : State) (z : BitVec 3) (f : XGroup → XGroup) : (s.modXgroup z f).fuses = s.fuses := rfl
@[simp] theorem State.modXgroup_free (s : State) (z : BitVec 3) (f : XGroup → XGroup) : (s.modXgroup z f).free = s.free := rfl
@[simp] theorem State.modXgroup_time (s : State) (z : BitVec 3) (f : XGroup → XGroup) : (s.modXgroup z f).time = s.time := rfl
@[simp] theorem State.modXgroup_tiles (s : State) (z : BitVec 3) (f : XGroup → XGroup) : (s.modXgroup z f).tiles = s.tiles := rfl
@[simp] theorem State.modXgroup_clusters (s : State) (z : BitVec 3) (f : XGroup → XGroup) : (s.modXgroup z f).clusters = s.clusters := rfl
@[simp] theorem State.modXgroup_regions (s : State) (z : BitVec 3) (f : XGroup → XGroup) : (s.modXgroup z f).regions = s.regions := rfl
@[simp] theorem State.modXgroup_zones (s : State) (z : BitVec 3) (f : XGroup → XGroup) : (s.modXgroup z f).zones = s.zones := rfl
@[simp] theorem State.modXgroup_tracks (s : State) (z : BitVec 3) (f : XGroup → XGroup) : (s.modXgroup z f).tracks = s.tracks := rfl
@[simp] theorem State.modXgroup_log (s : State) (z : BitVec 3) (f : XGroup → XGroup) : (s.modXgroup z f).log = s.log := rfl
@[simp] theorem State.modXgroup_memory (s : State) (z : BitVec 3) (f : XGroup → XGroup) : (s.modXgroup z f).memory = s.memory := rfl
@[simp] theorem State.modXgroup_host (s : State) (z : BitVec 3) (f : XGroup → XGroup) : (s.modXgroup z f).host = s.host := rfl
@[simp] theorem State.modXgroup_arb (s : State) (z : BitVec 3) (f : XGroup → XGroup) : (s.modXgroup z f).arb = s.arb := rfl
@[simp] theorem State.modXgroup_fabric (s : State) (z : BitVec 3) (f : XGroup → XGroup) : (s.modXgroup z f).fabric = s.fabric := rfl
@[simp] theorem State.modXgroup_post (s : State) (z : BitVec 3) (f : XGroup → XGroup) : (s.modXgroup z f).post = s.post := rfl
@[simp] theorem State.modXgroup_power (s : State) (z : BitVec 3) (f : XGroup → XGroup) : (s.modXgroup z f).power = s.power := rfl
@[simp] theorem State.modXgroup_chip (s : State) (z : BitVec 3) (f : XGroup → XGroup) : (s.modXgroup z f).chip = s.chip := rfl
@[simp] theorem State.modXgroup_dbg (s : State) (z : BitVec 3) (f : XGroup → XGroup) : (s.modXgroup z f).dbg = s.dbg := rfl
@[simp] theorem State.modXgroup_pending (s : State) (z : BitVec 3) (f : XGroup → XGroup) : (s.modXgroup z f).pending = s.pending := rfl

/-! ### modHalf -/

@[simp] theorem State.modHalf_fuses (s : State) (e : Nat) (f : Half → Half) : (s.modHalf e f).fuses = s.fuses := rfl
@[simp] theorem State.modHalf_free (s : State) (e : Nat) (f : Half → Half) : (s.modHalf e f).free = s.free := rfl
@[simp] theorem State.modHalf_time (s : State) (e : Nat) (f : Half → Half) : (s.modHalf e f).time = s.time := rfl
@[simp] theorem State.modHalf_tiles (s : State) (e : Nat) (f : Half → Half) : (s.modHalf e f).tiles = s.tiles := rfl
@[simp] theorem State.modHalf_clusters (s : State) (e : Nat) (f : Half → Half) : (s.modHalf e f).clusters = s.clusters := rfl
@[simp] theorem State.modHalf_regions (s : State) (e : Nat) (f : Half → Half) : (s.modHalf e f).regions = s.regions := rfl
@[simp] theorem State.modHalf_zones (s : State) (e : Nat) (f : Half → Half) : (s.modHalf e f).zones = s.zones := rfl
@[simp] theorem State.modHalf_tracks (s : State) (e : Nat) (f : Half → Half) : (s.modHalf e f).tracks = s.tracks := rfl
@[simp] theorem State.modHalf_log (s : State) (e : Nat) (f : Half → Half) : (s.modHalf e f).log = s.log := rfl
@[simp] theorem State.modHalf_memory (s : State) (e : Nat) (f : Half → Half) : (s.modHalf e f).memory = s.memory := rfl
@[simp] theorem State.modHalf_host (s : State) (e : Nat) (f : Half → Half) : (s.modHalf e f).host = s.host := rfl
@[simp] theorem State.modHalf_arb (s : State) (e : Nat) (f : Half → Half) : (s.modHalf e f).arb = s.arb := rfl
@[simp] theorem State.modHalf_post (s : State) (e : Nat) (f : Half → Half) : (s.modHalf e f).post = s.post := rfl
@[simp] theorem State.modHalf_xgroups (s : State) (e : Nat) (f : Half → Half) : (s.modHalf e f).xgroups = s.xgroups := rfl
@[simp] theorem State.modHalf_power (s : State) (e : Nat) (f : Half → Half) : (s.modHalf e f).power = s.power := rfl
@[simp] theorem State.modHalf_chip (s : State) (e : Nat) (f : Half → Half) : (s.modHalf e f).chip = s.chip := rfl
@[simp] theorem State.modHalf_dbg (s : State) (e : Nat) (f : Half → Half) : (s.modHalf e f).dbg = s.dbg := rfl
@[simp] theorem State.modHalf_pending (s : State) (e : Nat) (f : Half → Half) : (s.modHalf e f).pending = s.pending := rfl

/-! ### modQueue -/

@[simp] theorem State.modQueue_fuses (s : State) (q : Nat) (f : CmdQueue → CmdQueue) : (s.modQueue q f).fuses = s.fuses := rfl
@[simp] theorem State.modQueue_free (s : State) (q : Nat) (f : CmdQueue → CmdQueue) : (s.modQueue q f).free = s.free := rfl
@[simp] theorem State.modQueue_time (s : State) (q : Nat) (f : CmdQueue → CmdQueue) : (s.modQueue q f).time = s.time := rfl
@[simp] theorem State.modQueue_tiles (s : State) (q : Nat) (f : CmdQueue → CmdQueue) : (s.modQueue q f).tiles = s.tiles := rfl
@[simp] theorem State.modQueue_clusters (s : State) (q : Nat) (f : CmdQueue → CmdQueue) : (s.modQueue q f).clusters = s.clusters := rfl
@[simp] theorem State.modQueue_regions (s : State) (q : Nat) (f : CmdQueue → CmdQueue) : (s.modQueue q f).regions = s.regions := rfl
@[simp] theorem State.modQueue_zones (s : State) (q : Nat) (f : CmdQueue → CmdQueue) : (s.modQueue q f).zones = s.zones := rfl
@[simp] theorem State.modQueue_tracks (s : State) (q : Nat) (f : CmdQueue → CmdQueue) : (s.modQueue q f).tracks = s.tracks := rfl
@[simp] theorem State.modQueue_log (s : State) (q : Nat) (f : CmdQueue → CmdQueue) : (s.modQueue q f).log = s.log := rfl
@[simp] theorem State.modQueue_memory (s : State) (q : Nat) (f : CmdQueue → CmdQueue) : (s.modQueue q f).memory = s.memory := rfl
@[simp] theorem State.modQueue_arb (s : State) (q : Nat) (f : CmdQueue → CmdQueue) : (s.modQueue q f).arb = s.arb := rfl
@[simp] theorem State.modQueue_fabric (s : State) (q : Nat) (f : CmdQueue → CmdQueue) : (s.modQueue q f).fabric = s.fabric := rfl
@[simp] theorem State.modQueue_post (s : State) (q : Nat) (f : CmdQueue → CmdQueue) : (s.modQueue q f).post = s.post := rfl
@[simp] theorem State.modQueue_xgroups (s : State) (q : Nat) (f : CmdQueue → CmdQueue) : (s.modQueue q f).xgroups = s.xgroups := rfl
@[simp] theorem State.modQueue_power (s : State) (q : Nat) (f : CmdQueue → CmdQueue) : (s.modQueue q f).power = s.power := rfl
@[simp] theorem State.modQueue_chip (s : State) (q : Nat) (f : CmdQueue → CmdQueue) : (s.modQueue q f).chip = s.chip := rfl
@[simp] theorem State.modQueue_dbg (s : State) (q : Nat) (f : CmdQueue → CmdQueue) : (s.modQueue q f).dbg = s.dbg := rfl
@[simp] theorem State.modQueue_pending (s : State) (q : Nat) (f : CmdQueue → CmdQueue) : (s.modQueue q f).pending = s.pending := rfl

/-! ### modStack -/

@[simp] theorem State.modStack_fuses (s : State) (m : Nat) (f : Stack → Stack) : (s.modStack m f).fuses = s.fuses := rfl
@[simp] theorem State.modStack_free (s : State) (m : Nat) (f : Stack → Stack) : (s.modStack m f).free = s.free := rfl
@[simp] theorem State.modStack_time (s : State) (m : Nat) (f : Stack → Stack) : (s.modStack m f).time = s.time := rfl
@[simp] theorem State.modStack_tiles (s : State) (m : Nat) (f : Stack → Stack) : (s.modStack m f).tiles = s.tiles := rfl
@[simp] theorem State.modStack_clusters (s : State) (m : Nat) (f : Stack → Stack) : (s.modStack m f).clusters = s.clusters := rfl
@[simp] theorem State.modStack_regions (s : State) (m : Nat) (f : Stack → Stack) : (s.modStack m f).regions = s.regions := rfl
@[simp] theorem State.modStack_zones (s : State) (m : Nat) (f : Stack → Stack) : (s.modStack m f).zones = s.zones := rfl
@[simp] theorem State.modStack_tracks (s : State) (m : Nat) (f : Stack → Stack) : (s.modStack m f).tracks = s.tracks := rfl
@[simp] theorem State.modStack_log (s : State) (m : Nat) (f : Stack → Stack) : (s.modStack m f).log = s.log := rfl
@[simp] theorem State.modStack_host (s : State) (m : Nat) (f : Stack → Stack) : (s.modStack m f).host = s.host := rfl
@[simp] theorem State.modStack_arb (s : State) (m : Nat) (f : Stack → Stack) : (s.modStack m f).arb = s.arb := rfl
@[simp] theorem State.modStack_fabric (s : State) (m : Nat) (f : Stack → Stack) : (s.modStack m f).fabric = s.fabric := rfl
@[simp] theorem State.modStack_post (s : State) (m : Nat) (f : Stack → Stack) : (s.modStack m f).post = s.post := rfl
@[simp] theorem State.modStack_xgroups (s : State) (m : Nat) (f : Stack → Stack) : (s.modStack m f).xgroups = s.xgroups := rfl
@[simp] theorem State.modStack_power (s : State) (m : Nat) (f : Stack → Stack) : (s.modStack m f).power = s.power := rfl
@[simp] theorem State.modStack_chip (s : State) (m : Nat) (f : Stack → Stack) : (s.modStack m f).chip = s.chip := rfl
@[simp] theorem State.modStack_dbg (s : State) (m : Nat) (f : Stack → Stack) : (s.modStack m f).dbg = s.dbg := rfl
@[simp] theorem State.modStack_pending (s : State) (m : Nat) (f : Stack → Stack) : (s.modStack m f).pending = s.pending := rfl

/-! ### modDie -/

@[simp] theorem State.modDie_fuses (s : State) (d : Nat) (f : DieTherm → DieTherm) : (s.modDie d f).fuses = s.fuses := rfl
@[simp] theorem State.modDie_free (s : State) (d : Nat) (f : DieTherm → DieTherm) : (s.modDie d f).free = s.free := rfl
@[simp] theorem State.modDie_time (s : State) (d : Nat) (f : DieTherm → DieTherm) : (s.modDie d f).time = s.time := rfl
@[simp] theorem State.modDie_tiles (s : State) (d : Nat) (f : DieTherm → DieTherm) : (s.modDie d f).tiles = s.tiles := rfl
@[simp] theorem State.modDie_clusters (s : State) (d : Nat) (f : DieTherm → DieTherm) : (s.modDie d f).clusters = s.clusters := rfl
@[simp] theorem State.modDie_regions (s : State) (d : Nat) (f : DieTherm → DieTherm) : (s.modDie d f).regions = s.regions := rfl
@[simp] theorem State.modDie_zones (s : State) (d : Nat) (f : DieTherm → DieTherm) : (s.modDie d f).zones = s.zones := rfl
@[simp] theorem State.modDie_tracks (s : State) (d : Nat) (f : DieTherm → DieTherm) : (s.modDie d f).tracks = s.tracks := rfl
@[simp] theorem State.modDie_log (s : State) (d : Nat) (f : DieTherm → DieTherm) : (s.modDie d f).log = s.log := rfl
@[simp] theorem State.modDie_memory (s : State) (d : Nat) (f : DieTherm → DieTherm) : (s.modDie d f).memory = s.memory := rfl
@[simp] theorem State.modDie_host (s : State) (d : Nat) (f : DieTherm → DieTherm) : (s.modDie d f).host = s.host := rfl
@[simp] theorem State.modDie_arb (s : State) (d : Nat) (f : DieTherm → DieTherm) : (s.modDie d f).arb = s.arb := rfl
@[simp] theorem State.modDie_fabric (s : State) (d : Nat) (f : DieTherm → DieTherm) : (s.modDie d f).fabric = s.fabric := rfl
@[simp] theorem State.modDie_post (s : State) (d : Nat) (f : DieTherm → DieTherm) : (s.modDie d f).post = s.post := rfl
@[simp] theorem State.modDie_xgroups (s : State) (d : Nat) (f : DieTherm → DieTherm) : (s.modDie d f).xgroups = s.xgroups := rfl
@[simp] theorem State.modDie_chip (s : State) (d : Nat) (f : DieTherm → DieTherm) : (s.modDie d f).chip = s.chip := rfl
@[simp] theorem State.modDie_dbg (s : State) (d : Nat) (f : DieTherm → DieTherm) : (s.modDie d f).dbg = s.dbg := rfl
@[simp] theorem State.modDie_pending (s : State) (d : Nat) (f : DieTherm → DieTherm) : (s.modDie d f).pending = s.pending := rfl

/-! ### tookFree -/

@[simp] theorem State.tookFree_fuses (s : State) : (s.tookFree).fuses = s.fuses := rfl
@[simp] theorem State.tookFree_time (s : State) : (s.tookFree).time = s.time := rfl
@[simp] theorem State.tookFree_tiles (s : State) : (s.tookFree).tiles = s.tiles := rfl
@[simp] theorem State.tookFree_clusters (s : State) : (s.tookFree).clusters = s.clusters := rfl
@[simp] theorem State.tookFree_regions (s : State) : (s.tookFree).regions = s.regions := rfl
@[simp] theorem State.tookFree_zones (s : State) : (s.tookFree).zones = s.zones := rfl
@[simp] theorem State.tookFree_tracks (s : State) : (s.tookFree).tracks = s.tracks := rfl
@[simp] theorem State.tookFree_log (s : State) : (s.tookFree).log = s.log := rfl
@[simp] theorem State.tookFree_memory (s : State) : (s.tookFree).memory = s.memory := rfl
@[simp] theorem State.tookFree_host (s : State) : (s.tookFree).host = s.host := rfl
@[simp] theorem State.tookFree_arb (s : State) : (s.tookFree).arb = s.arb := rfl
@[simp] theorem State.tookFree_fabric (s : State) : (s.tookFree).fabric = s.fabric := rfl
@[simp] theorem State.tookFree_post (s : State) : (s.tookFree).post = s.post := rfl
@[simp] theorem State.tookFree_xgroups (s : State) : (s.tookFree).xgroups = s.xgroups := rfl
@[simp] theorem State.tookFree_power (s : State) : (s.tookFree).power = s.power := rfl
@[simp] theorem State.tookFree_chip (s : State) : (s.tookFree).chip = s.chip := rfl
@[simp] theorem State.tookFree_dbg (s : State) : (s.tookFree).dbg = s.dbg := rfl
@[simp] theorem State.tookFree_pending (s : State) : (s.tookFree).pending = s.pending := rfl

/-! ### unwait -/

@[simp] theorem State.unwait_fuses (s : State) (w : Waiter) : (s.unwait w).fuses = s.fuses := rfl
@[simp] theorem State.unwait_free (s : State) (w : Waiter) : (s.unwait w).free = s.free := rfl
@[simp] theorem State.unwait_time (s : State) (w : Waiter) : (s.unwait w).time = s.time := rfl
@[simp] theorem State.unwait_tiles (s : State) (w : Waiter) : (s.unwait w).tiles = s.tiles := rfl
@[simp] theorem State.unwait_clusters (s : State) (w : Waiter) : (s.unwait w).clusters = s.clusters := rfl
@[simp] theorem State.unwait_regions (s : State) (w : Waiter) : (s.unwait w).regions = s.regions := rfl
@[simp] theorem State.unwait_zones (s : State) (w : Waiter) : (s.unwait w).zones = s.zones := rfl
@[simp] theorem State.unwait_tracks (s : State) (w : Waiter) : (s.unwait w).tracks = s.tracks := rfl
@[simp] theorem State.unwait_log (s : State) (w : Waiter) : (s.unwait w).log = s.log := rfl
@[simp] theorem State.unwait_memory (s : State) (w : Waiter) : (s.unwait w).memory = s.memory := rfl
@[simp] theorem State.unwait_arb (s : State) (w : Waiter) : (s.unwait w).arb = s.arb := rfl
@[simp] theorem State.unwait_fabric (s : State) (w : Waiter) : (s.unwait w).fabric = s.fabric := rfl
@[simp] theorem State.unwait_post (s : State) (w : Waiter) : (s.unwait w).post = s.post := rfl
@[simp] theorem State.unwait_xgroups (s : State) (w : Waiter) : (s.unwait w).xgroups = s.xgroups := rfl
@[simp] theorem State.unwait_power (s : State) (w : Waiter) : (s.unwait w).power = s.power := rfl
@[simp] theorem State.unwait_chip (s : State) (w : Waiter) : (s.unwait w).chip = s.chip := rfl
@[simp] theorem State.unwait_dbg (s : State) (w : Waiter) : (s.unwait w).dbg = s.dbg := rfl
@[simp] theorem State.unwait_pending (s : State) (w : Waiter) : (s.unwait w).pending = s.pending := rfl

@[simp] theorem State.tookFree_free (s : State) : s.tookFree.free = s.free + 1 := rfl

/-! ### Reading the unit that was written, and the others -/

@[simp] theorem State.setTile_tile (s : State) (t : TileId) (x : Tile) : (s.setTile t x).tile t = x := by
  simp [State.tile, State.setTile]

theorem State.setTile_tile_ne (s : State) (t o : TileId) (x : Tile) (h : o ≠ t) : (s.setTile t x).tile o = s.tile o := by
  have hn : o.toNat ≠ t.toNat := fun e => h (BitVec.eq_of_toNat_eq e)
  simp [State.tile, State.setTile, hn]

/-- The last of two writes of one tile stands. -/
@[simp] theorem State.setTile_setTile (s : State) (t : TileId) (x y : Tile) : (s.setTile t x).setTile t y = s.setTile t y := by
  simp [State.setTile]

@[simp] theorem State.modTile_tile (s : State) (t : TileId) (f : Tile → Tile) : (s.modTile t f).tile t = f (s.tile t) :=
  State.setTile_tile _ _ _

theorem State.modTile_tile_ne (s : State) (t o : TileId) (f : Tile → Tile) (h : o ≠ t) : (s.modTile t f).tile o = s.tile o :=
  State.setTile_tile_ne _ _ _ _ h

@[simp] theorem Tile.setCtx_ctx (x : Tile) (c : Bool) (y : Ctx) : (x.setCtx c y).ctx c = y := by
  cases c <;> rfl

theorem Tile.setCtx_ctx_ne (x : Tile) (c d : Bool) (y : Ctx) (h : d ≠ c) : (x.setCtx c y).ctx d = x.ctx d := by
  cases c <;> cases d <;> first | rfl | exact absurd rfl h

@[simp] theorem Tile.setCtx_bound (x : Tile) (c : Bool) (y : Ctx) : (x.setCtx c y).bound = x.bound := by cases c <;> rfl
@[simp] theorem Tile.setCtx_burin (x : Tile) (c : Bool) (y : Ctx) : (x.setCtx c y).burin = x.burin := by cases c <;> rfl
@[simp] theorem Tile.setCtx_stylus (x : Tile) (c : Bool) (y : Ctx) : (x.setCtx c y).stylus = x.stylus := by cases c <;> rfl
@[simp] theorem Tile.setCtx_stipple (x : Tile) (c : Bool) (y : Ctx) : (x.setCtx c y).stipple = x.stipple := by cases c <;> rfl
@[simp] theorem Tile.setCtx_xeng (x : Tile) (c : Bool) (y : Ctx) : (x.setCtx c y).xeng = x.xeng := by cases c <;> rfl
@[simp] theorem Tile.setCtx_vregs (x : Tile) (c : Bool) (y : Ctx) : (x.setCtx c y).vregs = x.vregs := by cases c <;> rfl
@[simp] theorem Tile.setCtx_opbuf (x : Tile) (c : Bool) (y : Ctx) : (x.setCtx c y).opbuf = x.opbuf := by cases c <;> rfl
@[simp] theorem Tile.setCtx_acc (x : Tile) (c : Bool) (y : Ctx) : (x.setCtx c y).acc = x.acc := by cases c <;> rfl
@[simp] theorem Tile.setCtx_staging (x : Tile) (c : Bool) (y : Ctx) : (x.setCtx c y).staging = x.staging := by cases c <;> rfl
@[simp] theorem Tile.setCtx_ib (x : Tile) (c : Bool) (y : Ctx) : (x.setCtx c y).ib = x.ib := by cases c <;> rfl
@[simp] theorem Tile.setCtx_sp (x : Tile) (c : Bool) (y : Ctx) : (x.setCtx c y).sp = x.sp := by cases c <;> rfl
@[simp] theorem Tile.setCtx_spErr (x : Tile) (c : Bool) (y : Ctx) : (x.setCtx c y).spErr = x.spErr := by cases c <;> rfl
@[simp] theorem Tile.setCtx_scrubLine (x : Tile) (c : Bool) (y : Ctx) : (x.setCtx c y).scrubLine = x.scrubLine := by cases c <;> rfl
@[simp] theorem Tile.setCtx_xch (x : Tile) (c : Bool) (y : Ctx) : (x.setCtx c y).xch = x.xch := by cases c <;> rfl
@[simp] theorem Tile.setCtx_ibp (x : Tile) (c : Bool) (y : Ctx) : (x.setCtx c y).ibp = x.ibp := by cases c <;> rfl
@[simp] theorem Tile.setCtx_wp (x : Tile) (c : Bool) (y : Ctx) : (x.setCtx c y).wp = x.wp := by cases c <;> rfl
@[simp] theorem Tile.setCtx_haltOnBrk (x : Tile) (c : Bool) (y : Ctx) : (x.setCtx c y).haltOnBrk = x.haltOnBrk := by cases c <;> rfl
@[simp] theorem Tile.setCtx_audit (x : Tile) (c : Bool) (y : Ctx) : (x.setCtx c y).audit = x.audit := by cases c <;> rfl
@[simp] theorem Tile.setCtx_dbgHit (x : Tile) (c : Bool) (y : Ctx) : (x.setCtx c y).dbgHit = x.dbgHit := by cases c <;> rfl

@[simp] theorem Tile.setCtx_setCtx (x : Tile) (c : Bool) (y z : Ctx) : (x.setCtx c y).setCtx c z = x.setCtx c z := by
  cases c <;> rfl

/-- Two changes of one context are one change. -/
theorem State.modCtx_modCtx (s : State) (t : TileId) (c : Bool) (f g : Ctx → Ctx) :
    (s.modCtx t c f).modCtx t c g = s.modCtx t c fun y => g (f y) := by
  simp [State.modCtx, State.setCtx, State.modTile, State.ctx]

@[simp] theorem State.setCtx_tile (s : State) (t : TileId) (c : Bool) (y : Ctx) : (s.setCtx t c y).tile t = (s.tile t).setCtx c y :=
  State.modTile_tile _ _ _

@[simp] theorem State.setCtx_ctx (s : State) (t : TileId) (c : Bool) (y : Ctx) : (s.setCtx t c y).ctx t c = y := by
  simp [State.ctx]

@[simp] theorem State.modCtx_ctx (s : State) (t : TileId) (c : Bool) (f : Ctx → Ctx) : (s.modCtx t c f).ctx t c = f (s.ctx t c) :=
  State.setCtx_ctx _ _ _ _

theorem State.modCtx_tile_ne (s : State) (t o : TileId) (c : Bool) (f : Ctx → Ctx) (h : o ≠ t) :
    (s.modCtx t c f).tile o = s.tile o := State.modTile_tile_ne _ _ _ _ h

theorem State.modCtx_ctx_ne (s : State) (t : TileId) (c d : Bool) (f : Ctx → Ctx) (h : d ≠ c) :
    (s.modCtx t c f).ctx t d = s.ctx t d := by
  simp only [State.ctx, State.modCtx, State.setCtx_tile]
  exact Tile.setCtx_ctx_ne _ _ _ _ h

@[simp] theorem State.modCluster_cluster (s : State) (i : Nat) (f : Cluster → Cluster) : (s.modCluster i f).cluster i = f (s.cluster i) := by
  simp [State.cluster, State.modCluster]

theorem State.modCluster_cluster_ne (s : State) (i o : Nat) (f : Cluster → Cluster) (h : o ≠ i) : (s.modCluster i f).cluster o = s.cluster o := by
  simp [State.cluster, State.modCluster, h]

@[simp] theorem State.modRegion_region (s : State) (g : Nat) (f : Region → Region) : (s.modRegion g f).region g = f (s.region g) := by
  simp [State.region, State.modRegion]

theorem State.modRegion_region_ne (s : State) (g o : Nat) (f : Region → Region) (h : o ≠ g) : (s.modRegion g f).region o = s.region o := by
  simp [State.region, State.modRegion, h]

@[simp] theorem State.modHalf_half (s : State) (e : Nat) (f : Half → Half) : (s.modHalf e f).half e = f (s.half e) := by
  simp [State.half, State.modHalf]

theorem State.modHalf_half_ne (s : State) (e o : Nat) (f : Half → Half) (h : o ≠ e) : (s.modHalf e f).half o = s.half o := by
  simp [State.half, State.modHalf, h]

@[simp] theorem State.modQueue_queue (s : State) (q : Nat) (f : CmdQueue → CmdQueue) : (s.modQueue q f).queue q = f (s.queue q) := by
  simp [State.queue, State.modQueue]

theorem State.modQueue_queue_ne (s : State) (q o : Nat) (f : CmdQueue → CmdQueue) (h : o ≠ q) : (s.modQueue q f).queue o = s.queue o := by
  simp [State.queue, State.modQueue, h]

@[simp] theorem State.modStack_stack (s : State) (m : Nat) (f : Stack → Stack) : (s.modStack m f).stack m = f (s.stack m) := by
  simp [State.stack, State.modStack]

theorem State.modStack_stack_ne (s : State) (m o : Nat) (f : Stack → Stack) (h : o ≠ m) : (s.modStack m f).stack o = s.stack o := by
  simp [State.stack, State.modStack, h]

@[simp] theorem State.modDie_dieTherm (s : State) (d : Nat) (f : DieTherm → DieTherm) : (s.modDie d f).dieTherm d = f (s.dieTherm d) := by
  simp [State.dieTherm, State.modDie]

theorem State.modDie_dieTherm_ne (s : State) (d o : Nat) (f : DieTherm → DieTherm) (h : o ≠ d) : (s.modDie d f).dieTherm o = s.dieTherm o := by
  simp [State.dieTherm, State.modDie, h]

@[simp] theorem State.modZone_zone (s : State) (z : BitVec 3) (f : Zone → Zone) : (s.modZone z f).zone z = f (s.zone z) := by
  simp [State.zone, State.modZone]

theorem State.modZone_zone_ne (s : State) (z o : BitVec 3) (f : Zone → Zone) (h : o ≠ z) : (s.modZone z f).zone o = s.zone o := by
  have hn : o.toNat ≠ z.toNat := fun e => h (BitVec.eq_of_toNat_eq e)
  simp [State.zone, State.modZone, hn]

@[simp] theorem State.modXgroup_xgroup (s : State) (z : BitVec 3) (f : XGroup → XGroup) : (s.modXgroup z f).xgroup z = f (s.xgroup z) := by
  simp [State.xgroup, State.modXgroup]

theorem State.modXgroup_xgroup_ne (s : State) (z o : BitVec 3) (f : XGroup → XGroup) (h : o ≠ z) : (s.modXgroup z f).xgroup o = s.xgroup o := by
  have hn : o.toNat ≠ z.toNat := fun e => h (BitVec.eq_of_toNat_eq e)
  simp [State.xgroup, State.modXgroup, hn]

/-! ### Registers of a context -/

/-- s0 reads 0 (R173). -/
@[simp] theorem Ctx.reg_zero (y : Ctx) : y.reg 0 = 0 := rfl

/-- A write of s0 is discarded (R47, R173). -/
@[simp] theorem Ctx.setReg_zero (y : Ctx) (v : Word) : y.setReg 0 v = y := rfl

theorem Ctx.setReg_reg (y : Ctx) (r : RegNo) (v : Word) (h : r ≠ 0) : (y.setReg r v).reg r = v := by
  unfold Ctx.reg Ctx.setReg
  rw [if_neg h, if_neg h]
  simp

theorem Ctx.setReg_reg_ne (y : Ctx) (r q : RegNo) (v : Word) (h : q ≠ r) : (y.setReg r v).reg q = y.reg q := by
  have hn : q.toNat ≠ r.toNat := fun e => h (BitVec.eq_of_toNat_eq e)
  unfold Ctx.reg Ctx.setReg
  split
  · rfl
  · split
    · rfl
    · simp [hn]

@[simp] theorem Ctx.setReg_phase (y : Ctx) (r : RegNo) (v : Word) : (y.setReg r v).phase = y.phase := by
  unfold Ctx.setReg; split <;> rfl
@[simp] theorem Ctx.setReg_halted (y : Ctx) (r : RegNo) (v : Word) : (y.setReg r v).halted = y.halted := by
  unfold Ctx.setReg; split <;> rfl
@[simp] theorem Ctx.setReg_pc (y : Ctx) (r : RegNo) (v : Word) : (y.setReg r v).pc = y.pc := by
  unfold Ctx.setReg; split <;> rfl
@[simp] theorem Ctx.setReg_gate (y : Ctx) (r : RegNo) (v : Word) : (y.setReg r v).gate = y.gate := by
  unfold Ctx.setReg; split <;> rfl
@[simp] theorem Ctx.setReg_sig (y : Ctx) (r : RegNo) (v : Word) : (y.setReg r v).sig = y.sig := by
  unfold Ctx.setReg; split <;> rfl
@[simp] theorem Ctx.setReg_ovf (y : Ctx) (r : RegNo) (v : Word) : (y.setReg r v).ovf = y.ovf := by
  unfold Ctx.setReg; split <;> rfl
@[simp] theorem Ctx.setReg_fpcsr (y : Ctx) (r : RegNo) (v : Word) : (y.setReg r v).fpcsr = y.fpcsr := by
  unfold Ctx.setReg; split <;> rfl
@[simp] theorem Ctx.setReg_crs (y : Ctx) (r : RegNo) (v : Word) : (y.setReg r v).crs = y.crs := by
  unfold Ctx.setReg; split <;> rfl
@[simp] theorem Ctx.setReg_rings (y : Ctx) (r : RegNo) (v : Word) : (y.setReg r v).rings = y.rings := by
  unfold Ctx.setReg; split <;> rfl
@[simp] theorem Ctx.setReg_asid (y : Ctx) (r : RegNo) (v : Word) : (y.setReg r v).asid = y.asid := by
  unfold Ctx.setReg; split <;> rfl
@[simp] theorem Ctx.setReg_zone (y : Ctx) (r : RegNo) (v : Word) : (y.setReg r v).zone = y.zone := by
  unfold Ctx.setReg; split <;> rfl
@[simp] theorem Ctx.setReg_stream (y : Ctx) (r : RegNo) (v : Word) : (y.setReg r v).stream = y.stream := by
  unfold Ctx.setReg; split <;> rfl
@[simp] theorem Ctx.setReg_postQ (y : Ctx) (r : RegNo) (v : Word) : (y.setReg r v).postQ = y.postQ := by
  unfold Ctx.setReg; split <;> rfl
@[simp] theorem Ctx.setReg_postSeq (y : Ctx) (r : RegNo) (v : Word) : (y.setReg r v).postSeq = y.postSeq := by
  unfold Ctx.setReg; split <;> rfl
@[simp] theorem Ctx.setReg_skipMatch (y : Ctx) (r : RegNo) (v : Word) : (y.setReg r v).skipMatch = y.skipMatch := by
  unfold Ctx.setReg; split <;> rfl
@[simp] theorem Ctx.setReg_steps (y : Ctx) (r : RegNo) (v : Word) : (y.setReg r v).steps = y.steps := by
  unfold Ctx.setReg; split <;> rfl
@[simp] theorem Ctx.setReg_tcCount (y : Ctx) (r : RegNo) (v : Word) : (y.setReg r v).tcCount = y.tcCount := by
  unfold Ctx.setReg; split <;> rfl
@[simp] theorem Ctx.setReg_args (y : Ctx) (r : RegNo) (v : Word) : (y.setReg r v).args = y.args := by
  unfold Ctx.setReg; split <;> rfl
@[simp] theorem Ctx.setReg_entry (y : Ctx) (r : RegNo) (v : Word) : (y.setReg r v).entry = y.entry := by
  unfold Ctx.setReg; split <;> rfl

@[simp] theorem Ctx.setCr_cr (y : Ctx) (n : Nat) (d : CircReg) : (y.setCr n d).cr n = d := by simp [Ctx.cr, Ctx.setCr]
theorem Ctx.setCr_cr_ne (y : Ctx) (n k : Nat) (d : CircReg) (h : k ≠ n) : (y.setCr n d).cr k = y.cr k := by simp [Ctx.cr, Ctx.setCr, h]
@[simp] theorem Ctx.setCr_reg (y : Ctx) (n : Nat) (d : CircReg) (r : RegNo) : (y.setCr n d).reg r = y.reg r := rfl
@[simp] theorem Ctx.setRing_ring (y : Ctx) (k : Nat) (r : PostRing) : (y.setRing k r).ring k = r := by simp [Ctx.ring, Ctx.setRing]
@[simp] theorem Ctx.setRing_cr (y : Ctx) (k : Nat) (r : PostRing) (n : Nat) : (y.setRing k r).cr n = y.cr n := rfl
@[simp] theorem Tile.setVreg_vreg (x : Tile) (v : RegNo) (d : BitVec 1024) : (x.setVreg v d).vreg v = d := by
  simp [Tile.vreg, Tile.setVreg]
theorem Tile.setVreg_vreg_ne (x : Tile) (v w : RegNo) (d : BitVec 1024) (h : w ≠ v) : (x.setVreg v d).vreg w = x.vreg w := by
  have hn : w.toNat ≠ v.toNat := fun e => h (BitVec.eq_of_toNat_eq e)
  simp [Tile.vreg, Tile.setVreg, hn]

/-! ### Outputs -/

@[simp] theorem State.emit_tiles (s : State) (o : HostOut) : (s.emit o).tiles = s.tiles := by unfold State.emit; split <;> rfl
@[simp] theorem State.emit_memory (s : State) (o : HostOut) : (s.emit o).memory = s.memory := by unfold State.emit; split <;> rfl
@[simp] theorem State.emit_log (s : State) (o : HostOut) : (s.emit o).log = s.log := by unfold State.emit; split <;> rfl
@[simp] theorem State.emit_chip (s : State) (o : HostOut) : (s.emit o).chip = s.chip := by unfold State.emit; split <;> rfl
@[simp] theorem State.emit_pending (s : State) (o : HostOut) : (s.emit o).pending = s.pending := by unfold State.emit; split <;> rfl

/-- An output in D0 leaves at once, after what has left before. -/
theorem State.emit_out (s : State) (o : HostOut) (h : s.host.power = .d0) : (s.emit o).host.out = s.host.out ++ [o] := by
  unfold State.emit; rw [if_pos h]

end Sys2Proof.Machine
end

