-- ==== Sys2Proof/Laws/Issue.lean ====
section
/-! SUPPORT. What the shared operations of the scalar core do, said once: recording trace events, entering D, writing one
register, branching, entering an engine's queue, and writing the scratchpad. -/

namespace Sys2Proof.Machine

/-! ### Words for what is left alone -/

theorem TraceOnly.refl (s : State) : TraceOnly s s := fun _ => rfl

theorem TraceOnly.trans {s u v : State} (h : TraceOnly s u) (g : TraceOnly u v) : TraceOnly s v := by
  intro i
  have h1 := h i
  have g1 := g i
  generalize s.cluster i = a at *
  generalize u.cluster i = b at *
  generalize v.cluster i = c at *
  cases a; cases b; cases c
  simp_all

/-- Nothing but trace queues differs. -/
def OnlyTrace (s u : State) : Prop := TraceOnly s u ∧ u = { s with clusters := u.clusters }

theorem OnlyTrace.refl (s : State) : OnlyTrace s s := ⟨TraceOnly.refl s, rfl⟩

theorem OnlyTrace.tile {s u : State} (h : OnlyTrace s u) (t : TileId) : u.tile t = s.tile t := by
  rw [h.2]; rfl

theorem OnlyTrace.ctx {s u : State} (h : OnlyTrace s u) (t : TileId) (c : Bool) : u.ctx t c = s.ctx t c := by
  rw [h.2]; rfl

/-- Queueing a trace event touches trace queues only (R482, R484). -/
theorem State.pushTrace_only (s : State) (t : TileId) (c : Bool) (type payload : Nat) : OnlyTrace s (s.pushTrace t c type payload) := by
  refine ⟨fun i => ?_, rfl⟩
  by_cases h : i = clusterOf t
  · subst h
    unfold State.pushTrace
    simp only [State.modCluster_cluster]
    split <;> rfl
  · unfold State.pushTrace
    rw [State.modCluster_cluster_ne _ _ _ _ h]

/-- Recording an event touches trace queues only, whatever the filters say (R483, R484). -/
theorem State.trace_only (s : State) (t : TileId) (c : Bool) (type : Nat) (l : List (Nat × Nat)) : OnlyTrace s (s.trace t c type l) := by
  unfold State.trace
  split
  · exact State.pushTrace_only s t c type _
  · exact OnlyTrace.refl s

/-! ### Issue (R47, R60, R476) -/

theorem Ready.issuer_eq {s : State} {t : TileId} {c : Bool} (h : Ready s t c) : s.issuer t Gate.open = some c := by
  unfold State.issuer
  rw [h.active]
  simp [h.runs, h.notHalted, h.gateOpen, Gate.open]

/-- A context that is not halted has no step to count (R476). -/
theorem State.countStep_running (s : State) (t : TileId) (c : Bool) (h : (s.ctx t c).halted = false) : s.countStep t c = s := by
  unfold State.countStep
  simp [h]

/-- A fill that starts changes the fills that are on their way, and nothing else of the tile (R51). -/
theorem Tile.startFill_only (x : Tile) (c : Bool) (line : Nat) :
    x.startFill c line = { x with fills := (x.startFill c line).fills } := by
  unfold Tile.startFill
  split <;> rfl

/-- A fetch changes the order of use of the buffered lines, the line it stands in and the fills under way, and nothing else of the
tile (R50, R51). -/
theorem Tile.touch_only (x : Tile) (c : Bool) (pc : Nat) :
    x.touch c pc = { x with ib := (x.touch c pc).ib, ibAt := (x.touch c pc).ibAt, fills := (x.touch c pc).fills } := by
  unfold Tile.touch
  split
  · dsimp only
    split
    · rfl
    · rw [Tile.startFill_only]
  · rfl

@[simp] theorem Tile.touch_ctx (x : Tile) (c d : Bool) (pc : Nat) : (x.touch c pc).ctx d = x.ctx d := by
  rw [Tile.touch_only]; rfl
@[simp] theorem Tile.touch_sp (x : Tile) (c : Bool) (pc : Nat) : (x.touch c pc).sp = x.sp := by
  rw [Tile.touch_only]
@[simp] theorem Tile.touch_spErr (x : Tile) (c : Bool) (pc : Nat) : (x.touch c pc).spErr = x.spErr := by
  rw [Tile.touch_only]

/-- A fetch leaves the same lines in the buffer, with the same contents (R50). -/
theorem Tile.touch_mem (x : Tile) (c : Bool) (pc : Nat) (l : IbLine) : l ∈ (x.touch c pc).ib ↔ l ∈ x.ib := by
  unfold Tile.touch
  split
  · next o ho =>
    have hm : o ∈ x.ib := List.mem_of_find?_eq_some ho
    have key : l ∈ (o :: x.ib.filter fun q => decide (q ≠ o)) ↔ l ∈ x.ib := by
      by_cases h : l = o
      · subst h; simp [hm]
      · simp [h]
    dsimp only
    split
    · exact key
    · rw [Tile.startFill_only]; exact key
  · rfl

/-- The state in which the effect of an instruction begins: its line has been fetched from the instruction buffer, the mark of a
breakpoint that was passed is gone, and a trace event may have been queued. -/
def Entered (s u : State) (t : TileId) (c : Bool) : Prop :=
  ∃ w, OnlyTrace s w ∧
    u = (w.modTile t fun x => x.touch c (s.ctx t c).pc.toNat).modCtx t c fun y => { y with skipMatch := false }

/-- An instruction of a ready context enters D: its effect begins in an entered state, and a step is counted where its gate is
open afterwards. One that stalls changes nothing (R49, R54). -/
theorem Ready.enterD_eq {s : State} {t : TileId} {c : Bool} (h : Ready s t c) (f : State → State) :
    s.enterD t c f true = s ∧
    ∃ w, Entered s w t c ∧ s.enterD t c f = if ((f w).ctx t c).gate.open then (f w).countStep t c else f w := by
  have hin : ¬ ((s.tile t).ctx c).pc.toNat ≥ (s.tile t).partSize c := Nat.not_le.mpr h.inside
  have hin' : ((s.tile t).ibLine c ((s.tile t).ctx c).pc.toNat).isNone = false := by
    have := h.lineIn
    rw [State.ctx] at this
    cases hx : (s.tile t).ibLine c ((s.tile t).ctx c).pc.toNat
    · rw [hx] at this; simp at this
    · rfl
  have hline : (s.tile t).lineUe c ((s.tile t).ctx c).pc.toNat = none := h.lineOk
  have hbrk : (if ((s.tile t).ctx c).skipMatch then none else (s.tile t).ibpMatch c ((s.tile t).ctx c).pc.toNat) = none := by
    rcases h.noBreak with hb | hb
    · have hb' : ((s.tile t).ctx c).skipMatch = true := hb
      rw [if_pos hb']
    · have hb' : (s.tile t).ibpMatch c ((s.tile t).ctx c).pc.toNat = none := hb
      rw [hb']; split <;> rfl
  constructor
  · unfold State.enterD
    simp only [if_neg hin, hin', hline, hbrk, Bool.false_eq_true, if_false, if_true]
  · unfold State.enterD
    simp only [if_neg hin, hin', hline, hbrk, Bool.false_eq_true, if_false]
    split
    · exact ⟨_, ⟨_, State.trace_only s t c 1 _, rfl⟩, rfl⟩
    · exact ⟨_, ⟨s, OnlyTrace.refl s, rfl⟩, rfl⟩

/-- What a ready context's instruction answers: the effect of an instruction that leaves the gate open and the context running. -/
theorem Ready.issue_eq {s : State} {t : TileId} {c : Bool} (h : Ready s t c) (f : Bool → State → State) (stall : Bool → Bool)
    (hs : stall c = false) :
    ∃ w, Entered s w t c ∧ s.issueUnless t stall f =
      .next (if ((f c w).ctx t c).gate.open then (f c w).countStep t c else f c w) := by
  obtain ⟨w, hw, he⟩ := (h.enterD_eq (f c)).2
  refine ⟨w, hw, ?_⟩
  unfold State.issueUnless
  rw [h.issuer_eq]
  simp only [hs, he]

/-- A stalled instruction changes nothing (R49, R54). -/
theorem Ready.issue_stall {s : State} {t : TileId} {c : Bool} (h : Ready s t c) (f : Bool → State → State) (stall : Bool → Bool)
    (hs : stall c = true) : s.issueUnless t stall f = .next s := by
  unfold State.issueUnless
  rw [h.issuer_eq]
  simp only [hs, (h.enterD_eq (f c)).1]

/-- A change of the context alone, from an entered state: nothing else of the device differs but trace queues. -/
theorem Entered.onlyCtx {s w : State} {t : TileId} {c : Bool} (h : Entered s w t c) (g : Ctx → Ctx) :
    OnlyCtx s (w.modCtx t c g) t c (g { s.ctx t c with skipMatch := false }) := by
  obtain ⟨v, hv, rfl⟩ := h
  have ht : ∀ o, v.tile o = s.tile o := hv.tile
  refine ⟨⟨?_, ?_⟩, hv.1, ?_⟩
  · rw [State.modCtx, State.setCtx_tile, State.modCtx_ctx]
    simp only [State.modCtx, State.setCtx_tile, State.modTile_tile, ht, State.ctx, State.afterFetch, Tile.touch_ctx]
    cases c <;> rfl
  · intro o ho
    rw [State.modCtx_tile_ne _ _ _ _ _ ho, State.modCtx_tile_ne _ _ _ _ _ ho, State.modTile_tile_ne _ _ _ _ ho, ht]
  · have hc : v.clusters = v.clusters := rfl
    rw [hv.2]
    rfl

/-- The context whose instruction has entered D is the one before it, but for the passed breakpoint. -/
theorem Entered.ctx_eq {s w : State} {t : TileId} {c : Bool} (h : Entered s w t c) :
    w.ctx t c = { s.ctx t c with skipMatch := false } := by
  obtain ⟨v, hv, rfl⟩ := h
  rw [State.modCtx_ctx]
  simp only [State.ctx, State.modTile_tile, Tile.touch_ctx, hv.tile]

/-- An instruction whose effect is a change of its context that leaves the gate open and does not halt it (R47, R173). -/
theorem Ready.issue_ctx {s : State} {t : TileId} {c : Bool} (h : Ready s t c) (f : Bool → State → State) (g : Ctx → Ctx)
    (hf : ∀ w, f c w = w.modCtx t c g) (hg : (g { s.ctx t c with skipMatch := false }).gate = Gate.none)
    (hh : (g { s.ctx t c with skipMatch := false }).halted = false) :
    ∃ u, s.issue t f = .next u ∧ OnlyCtx s u t c (g { s.ctx t c with skipMatch := false }) := by
  obtain ⟨w, hw, he⟩ := h.issue_eq f (fun _ => false) rfl
  have hc : (f c w).ctx t c = g { s.ctx t c with skipMatch := false } := by
    rw [hf, State.modCtx_ctx, hw.ctx_eq]
  refine ⟨w.modCtx t c g, ?_, hw.onlyCtx g⟩
  unfold State.issue
  rw [he, hc, hg, State.countStep_running _ _ _ (by rw [hc]; exact hh), hf]
  rfl

/-- An instruction that writes one register: the register takes its result, the program counter moves to the next word, and nothing
else changes (R173, R177, R179). -/
theorem Ready.issueRd_eq {s : State} {t : TileId} {c : Bool} (h : Ready s t c) (rd : RegNo) (f : Ctx → Word)
    (hf : f { s.ctx t c with skipMatch := false } = f (s.ctx t c)) :
    ∃ u, s.issueRd t rd f = .next u ∧ OnlyCtx s u t c ((s.ctx t c).setReg rd (f (s.ctx t c))).next := by
  let g : Ctx → Ctx := fun y => { y.setReg rd (f y) with pc := y.pc + 8 }
  have key : g { s.ctx t c with skipMatch := false } = ((s.ctx t c).setReg rd (f (s.ctx t c))).next := by
    simp only [g, Ctx.next, hf]
    unfold Ctx.setReg
    split <;> rfl
  have e := h.issue_ctx (fun c s => (s.modCtx t c fun y => y.setReg rd (f y)).advance t c) g (by
    intro w
    unfold State.advance
    rw [State.modCtx_modCtx]
    congr 1
    funext y
    simp [g]) (by
    rw [key]; simp [Ctx.next, h.gateOpen]) (by
    rw [key]; simp [Ctx.next, h.notHalted])
  rw [key] at e
  exact e

end Sys2Proof.Machine
end

