-- ==== Sys2Proof/Laws/Ops.lean ====
section
/-! SUPPORT. What the shared operations of the device do, said once: replies and outputs, the log and its alarms, the fence, commands
of the host, scratchpad and package memory writes. -/

namespace Sys2Proof.Machine

/-! ### Outputs and replies (R408, R414, R415, R419): they change the host interface, and the debug port where it asked -/

/-- Only the host interface differs. -/
def OnlyHost (s u : State) : Prop := u = { s with host := u.host }

/-- Only the host interface and the debug port differ. -/
def OnlyReply (s u : State) : Prop := u = { s with host := u.host, dbg := u.dbg }

theorem OnlyHost.refl (s : State) : OnlyHost s s := rfl
theorem OnlyHost.trans {s u v : State} (h : OnlyHost s u) (g : OnlyHost u v) : OnlyHost s v := by
  unfold OnlyHost at *
  rw [g, h]
theorem OnlyHost.reply {s u : State} (h : OnlyHost s u) : OnlyReply s u := by
  unfold OnlyHost at h
  unfold OnlyReply
  rw [h]

theorem State.emit_only (s : State) (o : HostOut) : OnlyHost s (s.emit o) := by
  unfold State.emit
  split <;> rfl

theorem State.signalVector_only (s : State) (v : Nat) : OnlyHost s (s.signalVector v) := by
  unfold State.signalVector
  split
  · rfl
  · exact State.emit_only s _

theorem State.modQueue_only (s : State) (q : Nat) (f : CmdQueue → CmdQueue) : OnlyHost s (s.modQueue q f) := rfl

theorem State.reply_steps_only (s : State) (o : HostOut) (q : Nat) (f : CmdQueue → CmdQueue) (v : Nat) (b : Bool) :
    OnlyHost s (if b = true then ((s.emit o).modQueue q f).signalVector v else (s.emit o).modQueue q f) := by
  split
  · exact ((State.emit_only s _).trans (State.modQueue_only _ _ _)).trans (State.signalVector_only _ _)
  · exact (State.emit_only s _).trans (State.modQueue_only _ _ _)

theorem State.replyOne_only (s : State) (h : CmdHdr) (op : BitVec 16) (st det : Nat) (r : BitVec 128) : OnlyHost s (s.replyOne h op st det r) := by
  unfold State.replyOne
  dsimp only
  by_cases hq : (s.queue h.queue).state = .none
  · rw [if_pos hq]
    rfl
  · rw [if_neg hq]
    exact State.reply_steps_only _ _ _ _ _ _

theorem State.each_only {α : Type} (l : List α) (f : State → α → State) (hf : ∀ s a, OnlyHost s (f s a)) (s : State) :
    OnlyHost s (s.each l f) := by
  induction l generalizing s with
  | nil => rfl
  | cons a r ih => exact (hf s a).trans (ih (f s a))

theorem State.queueEnds_only (s : State) (q : Nat) : OnlyHost s (s.queueEnds q) := by
  unfold State.queueEnds
  split
  · refine OnlyHost.trans ?_ (State.each_only _ _ (fun s w => State.replyOne_only s _ _ _ _ _) _)
    rfl
  · rfl

theorem State.queueReply_only (s : State) (h : CmdHdr) (op : BitVec 16) (st det : Nat) (r : BitVec 128) :
    OnlyHost s (s.queueReply h op st det r) :=
  ((State.replyOne_only s _ _ _ _ _).trans (State.queueEnds_only _ _)).trans (State.queueEnds_only _ _)

/-- A reply changes the host interface, or the debug port that asked. -/
theorem State.reply_only (s : State) (h : CmdHdr) (op : BitVec 16) (st det : Nat) (r : BitVec 128) : OnlyReply s (s.reply h op st det r) := by
  unfold State.reply
  split
  · rfl
  · exact (State.queueReply_only s _ _ _ _ _).reply

@[simp] theorem State.ok_tiles (s : State) (h : CmdHdr) (op : BitVec 16) (r : Nat) : (s.ok h op r).tiles = s.tiles := by
  rw [State.ok, State.reply_only]
@[simp] theorem State.ok_clusters (s : State) (h : CmdHdr) (op : BitVec 16) (r : Nat) : (s.ok h op r).clusters = s.clusters := by
  rw [State.ok, State.reply_only]
@[simp] theorem State.ok_regions (s : State) (h : CmdHdr) (op : BitVec 16) (r : Nat) : (s.ok h op r).regions = s.regions := by
  rw [State.ok, State.reply_only]
@[simp] theorem State.ok_zones (s : State) (h : CmdHdr) (op : BitVec 16) (r : Nat) : (s.ok h op r).zones = s.zones := by
  rw [State.ok, State.reply_only]
@[simp] theorem State.ok_tracks (s : State) (h : CmdHdr) (op : BitVec 16) (r : Nat) : (s.ok h op r).tracks = s.tracks := by
  rw [State.ok, State.reply_only]
@[simp] theorem State.ok_log (s : State) (h : CmdHdr) (op : BitVec 16) (r : Nat) : (s.ok h op r).log = s.log := by
  rw [State.ok, State.reply_only]
@[simp] theorem State.ok_memory (s : State) (h : CmdHdr) (op : BitVec 16) (r : Nat) : (s.ok h op r).memory = s.memory := by
  rw [State.ok, State.reply_only]
@[simp] theorem State.ok_arb (s : State) (h : CmdHdr) (op : BitVec 16) (r : Nat) : (s.ok h op r).arb = s.arb := by
  rw [State.ok, State.reply_only]
@[simp] theorem State.ok_fabric (s : State) (h : CmdHdr) (op : BitVec 16) (r : Nat) : (s.ok h op r).fabric = s.fabric := by
  rw [State.ok, State.reply_only]
@[simp] theorem State.ok_post (s : State) (h : CmdHdr) (op : BitVec 16) (r : Nat) : (s.ok h op r).post = s.post := by
  rw [State.ok, State.reply_only]
@[simp] theorem State.ok_xgroups (s : State) (h : CmdHdr) (op : BitVec 16) (r : Nat) : (s.ok h op r).xgroups = s.xgroups := by
  rw [State.ok, State.reply_only]
@[simp] theorem State.ok_power (s : State) (h : CmdHdr) (op : BitVec 16) (r : Nat) : (s.ok h op r).power = s.power := by
  rw [State.ok, State.reply_only]
@[simp] theorem State.ok_chip (s : State) (h : CmdHdr) (op : BitVec 16) (r : Nat) : (s.ok h op r).chip = s.chip := by
  rw [State.ok, State.reply_only]
@[simp] theorem State.ok_fuses (s : State) (h : CmdHdr) (op : BitVec 16) (r : Nat) : (s.ok h op r).fuses = s.fuses := by
  rw [State.ok, State.reply_only]
@[simp] theorem State.ok_time (s : State) (h : CmdHdr) (op : BitVec 16) (r : Nat) : (s.ok h op r).time = s.time := by
  rw [State.ok, State.reply_only]
@[simp] theorem State.ok_free (s : State) (h : CmdHdr) (op : BitVec 16) (r : Nat) : (s.ok h op r).free = s.free := by
  rw [State.ok, State.reply_only]
@[simp] theorem State.ok_pending (s : State) (h : CmdHdr) (op : BitVec 16) (r : Nat) : (s.ok h op r).pending = s.pending := by
  rw [State.ok, State.reply_only]

@[simp] theorem State.fail_tiles (s : State) (h : CmdHdr) (op : BitVec 16) (st det : Nat) : (s.fail h op st det).tiles = s.tiles := by
  rw [State.fail, State.reply_only]
@[simp] theorem State.fail_clusters (s : State) (h : CmdHdr) (op : BitVec 16) (st det : Nat) : (s.fail h op st det).clusters = s.clusters := by
  rw [State.fail, State.reply_only]
@[simp] theorem State.fail_regions (s : State) (h : CmdHdr) (op : BitVec 16) (st det : Nat) : (s.fail h op st det).regions = s.regions := by
  rw [State.fail, State.reply_only]
@[simp] theorem State.fail_zones (s : State) (h : CmdHdr) (op : BitVec 16) (st det : Nat) : (s.fail h op st det).zones = s.zones := by
  rw [State.fail, State.reply_only]
@[simp] theorem State.fail_tracks (s : State) (h : CmdHdr) (op : BitVec 16) (st det : Nat) : (s.fail h op st det).tracks = s.tracks := by
  rw [State.fail, State.reply_only]
@[simp] theorem State.fail_log (s : State) (h : CmdHdr) (op : BitVec 16) (st det : Nat) : (s.fail h op st det).log = s.log := by
  rw [State.fail, State.reply_only]
@[simp] theorem State.fail_memory (s : State) (h : CmdHdr) (op : BitVec 16) (st det : Nat) : (s.fail h op st det).memory = s.memory := by
  rw [State.fail, State.reply_only]
@[simp] theorem State.fail_arb (s : State) (h : CmdHdr) (op : BitVec 16) (st det : Nat) : (s.fail h op st det).arb = s.arb := by
  rw [State.fail, State.reply_only]
@[simp] theorem State.fail_fabric (s : State) (h : CmdHdr) (op : BitVec 16) (st det : Nat) : (s.fail h op st det).fabric = s.fabric := by
  rw [State.fail, State.reply_only]
@[simp] theorem State.fail_post (s : State) (h : CmdHdr) (op : BitVec 16) (st det : Nat) : (s.fail h op st det).post = s.post := by
  rw [State.fail, State.reply_only]
@[simp] theorem State.fail_xgroups (s : State) (h : CmdHdr) (op : BitVec 16) (st det : Nat) : (s.fail h op st det).xgroups = s.xgroups := by
  rw [State.fail, State.reply_only]
@[simp] theorem State.fail_power (s : State) (h : CmdHdr) (op : BitVec 16) (st det : Nat) : (s.fail h op st det).power = s.power := by
  rw [State.fail, State.reply_only]
@[simp] theorem State.fail_chip (s : State) (h : CmdHdr) (op : BitVec 16) (st det : Nat) : (s.fail h op st det).chip = s.chip := by
  rw [State.fail, State.reply_only]
@[simp] theorem State.fail_fuses (s : State) (h : CmdHdr) (op : BitVec 16) (st det : Nat) : (s.fail h op st det).fuses = s.fuses := by
  rw [State.fail, State.reply_only]
@[simp] theorem State.fail_time (s : State) (h : CmdHdr) (op : BitVec 16) (st det : Nat) : (s.fail h op st det).time = s.time := by
  rw [State.fail, State.reply_only]
@[simp] theorem State.fail_free (s : State) (h : CmdHdr) (op : BitVec 16) (st det : Nat) : (s.fail h op st det).free = s.free := by
  rw [State.fail, State.reply_only]
@[simp] theorem State.fail_pending (s : State) (h : CmdHdr) (op : BitVec 16) (st det : Nat) : (s.fail h op st det).pending = s.pending := by
  rw [State.fail, State.reply_only]

/-! ### The log (R461–R467) and the fence (R460) -/

/-- Raising an alarm changes what waits for delivery, and nothing else (R467). -/
theorem State.alarm_only (s : State) (code level unit det : Nat) (c : Bool) (pos act : Nat) :
    s.alarm code level unit det c pos act =
      { s with log := { s.log with staged := (s.alarm code level unit det c pos act).log.staged } } := by
  unfold State.alarm
  dsimp only
  split <;> rfl

/-- Handing an event to a waiting EVENT_WAIT changes the held events and the reply's interfaces (R463). -/
theorem State.pumpEvent_only (s : State) :
    s.pumpEvent = { s with log := { s.log with events := s.pumpEvent.log.events }, host := s.pumpEvent.host, dbg := s.pumpEvent.dbg } := by
  unfold State.pumpEvent
  split
  · rw [State.ok, State.reply_only]
    rfl
  · rfl

theorem State.addEvent_only (s : State) (r : Record) :
    s.addEvent r = { s with log := { s.log with events := (s.addEvent r).log.events }, host := (s.addEvent r).host,
                            dbg := (s.addEvent r).dbg } := by
  unfold State.addEvent
  rw [State.pumpEvent_only]

/-- Making a record changes the log and the reply's interfaces only (R461, R463, R466). -/
theorem State.record_only (s : State) (code cls level unit : Nat) (c : Bool) (pos act det : Nat) (ab : Bool) (key : Nat) :
    s.record code cls level unit c pos act det ab key =
      { s with log := (s.record code cls level unit c pos act det ab key).log,
               host := (s.record code cls level unit c pos act det ab key).host,
               dbg := (s.record code cls level unit c pos act det ab key).dbg } := by
  unfold State.record State.logNew
  dsimp only
  split
  · rw [State.addEvent_only]
  · split
    · rfl
    · rw [State.alarm_only]

/-- With room in its section, a new record stands at the end of the log (R461, R466). -/
theorem State.record_errs (s : State) (code cls level unit : Nat) (c : Bool) (pos act det : Nat) (ab : Bool) (key : Nat)
    (h : s.log.errs.length < 7168) :
    ∃ r, (s.record code cls level unit c pos act det ab key).log.errs = s.log.errs ++ [r] ∧ r.code = code ∧ r.cls = cls ∧
      r.level = level ∧ r.unit = unit ∧ r.ctx = c ∧ r.pos = pos ∧ r.action = act ∧ r.absorbed = ab ∧ r.index = s.log.next ∧
      r.firstRc = s.time := by
  unfold State.record State.logNew
  dsimp only
  rw [if_pos h, State.addEvent_only]
  exact ⟨_, rfl, rfl, rfl, rfl, rfl, rfl, rfl, rfl, rfl, rfl, rfl⟩

@[simp] theorem State.record_tiles (s : State) (code cls level unit : Nat) (c : Bool) (pos act det : Nat) (ab : Bool) (key : Nat) :
    (s.record code cls level unit c pos act det ab key).tiles = s.tiles := by
  rw [State.record_only]
@[simp] theorem State.record_clusters (s : State) (code cls level unit : Nat) (c : Bool) (pos act det : Nat) (ab : Bool) (key : Nat) :
    (s.record code cls level unit c pos act det ab key).clusters = s.clusters := by
  rw [State.record_only]
@[simp] theorem State.record_regions (s : State) (code cls level unit : Nat) (c : Bool) (pos act det : Nat) (ab : Bool) (key : Nat) :
    (s.record code cls level unit c pos act det ab key).regions = s.regions := by
  rw [State.record_only]
@[simp] theorem State.record_zones (s : State) (code cls level unit : Nat) (c : Bool) (pos act det : Nat) (ab : Bool) (key : Nat) :
    (s.record code cls level unit c pos act det ab key).zones = s.zones := by
  rw [State.record_only]
@[simp] theorem State.record_tracks (s : State) (code cls level unit : Nat) (c : Bool) (pos act det : Nat) (ab : Bool) (key : Nat) :
    (s.record code cls level unit c pos act det ab key).tracks = s.tracks := by
  rw [State.record_only]
@[simp] theorem State.record_memory (s : State) (code cls level unit : Nat) (c : Bool) (pos act det : Nat) (ab : Bool) (key : Nat) :
    (s.record code cls level unit c pos act det ab key).memory = s.memory := by
  rw [State.record_only]
@[simp] theorem State.record_arb (s : State) (code cls level unit : Nat) (c : Bool) (pos act det : Nat) (ab : Bool) (key : Nat) :
    (s.record code cls level unit c pos act det ab key).arb = s.arb := by
  rw [State.record_only]
@[simp] theorem State.record_fabric (s : State) (code cls level unit : Nat) (c : Bool) (pos act det : Nat) (ab : Bool) (key : Nat) :
    (s.record code cls level unit c pos act det ab key).fabric = s.fabric := by
  rw [State.record_only]
@[simp] theorem State.record_post (s : State) (code cls level unit : Nat) (c : Bool) (pos act det : Nat) (ab : Bool) (key : Nat) :
    (s.record code cls level unit c pos act det ab key).post = s.post := by
  rw [State.record_only]
@[simp] theorem State.record_xgroups (s : State) (code cls level unit : Nat) (c : Bool) (pos act det : Nat) (ab : Bool) (key : Nat) :
    (s.record code cls level unit c pos act det ab key).xgroups = s.xgroups := by
  rw [State.record_only]
@[simp] theorem State.record_power (s : State) (code cls level unit : Nat) (c : Bool) (pos act det : Nat) (ab : Bool) (key : Nat) :
    (s.record code cls level unit c pos act det ab key).power = s.power := by
  rw [State.record_only]
@[simp] theorem State.record_chip (s : State) (code cls level unit : Nat) (c : Bool) (pos act det : Nat) (ab : Bool) (key : Nat) :
    (s.record code cls level unit c pos act det ab key).chip = s.chip := by
  rw [State.record_only]
@[simp] theorem State.record_fuses (s : State) (code cls level unit : Nat) (c : Bool) (pos act det : Nat) (ab : Bool) (key : Nat) :
    (s.record code cls level unit c pos act det ab key).fuses = s.fuses := by
  rw [State.record_only]
@[simp] theorem State.record_time (s : State) (code cls level unit : Nat) (c : Bool) (pos act det : Nat) (ab : Bool) (key : Nat) :
    (s.record code cls level unit c pos act det ab key).time = s.time := by
  rw [State.record_only]
@[simp] theorem State.record_free (s : State) (code cls level unit : Nat) (c : Bool) (pos act det : Nat) (ab : Bool) (key : Nat) :
    (s.record code cls level unit c pos act det ab key).free = s.free := by
  rw [State.record_only]
@[simp] theorem State.record_pending (s : State) (code cls level unit : Nat) (c : Bool) (pos act det : Nat) (ab : Bool) (key : Nat) :
    (s.record code cls level unit c pos act det ab key).pending = s.pending := by
  rw [State.record_only]

/-- What fences the device leaves it fenced (R460). -/
theorem State.fence_fenced (s : State) (k : Nat) : (s.fence k).log.fenced = true := by
  unfold State.fence
  split
  · assumption
  · unfold State.record State.logNew
    dsimp only
    split
    · rw [State.addEvent_only]
    · split
      · rfl
      · rw [State.alarm_only]

@[simp] theorem State.fence_tiles (s : State) (k : Nat) : (s.fence k).tiles = s.tiles := by
  unfold State.fence; split
  · rfl
  · simp
@[simp] theorem State.fence_clusters (s : State) (k : Nat) : (s.fence k).clusters = s.clusters := by
  unfold State.fence; split
  · rfl
  · simp
@[simp] theorem State.fence_regions (s : State) (k : Nat) : (s.fence k).regions = s.regions := by
  unfold State.fence; split
  · rfl
  · simp
@[simp] theorem State.fence_zones (s : State) (k : Nat) : (s.fence k).zones = s.zones := by
  unfold State.fence; split
  · rfl
  · simp
@[simp] theorem State.fence_tracks (s : State) (k : Nat) : (s.fence k).tracks = s.tracks := by
  unfold State.fence; split
  · rfl
  · simp
@[simp] theorem State.fence_memory (s : State) (k : Nat) : (s.fence k).memory = s.memory := by
  unfold State.fence; split
  · rfl
  · simp
@[simp] theorem State.fence_arb (s : State) (k : Nat) : (s.fence k).arb = s.arb := by
  unfold State.fence; split
  · rfl
  · simp
@[simp] theorem State.fence_fabric (s : State) (k : Nat) : (s.fence k).fabric = s.fabric := by
  unfold State.fence; split
  · rfl
  · simp
@[simp] theorem State.fence_post (s : State) (k : Nat) : (s.fence k).post = s.post := by
  unfold State.fence; split
  · rfl
  · simp
@[simp] theorem State.fence_xgroups (s : State) (k : Nat) : (s.fence k).xgroups = s.xgroups := by
  unfold State.fence; split
  · rfl
  · simp
@[simp] theorem State.fence_power (s : State) (k : Nat) : (s.fence k).power = s.power := by
  unfold State.fence; split
  · rfl
  · simp
@[simp] theorem State.fence_chip (s : State) (k : Nat) : (s.fence k).chip = s.chip := by
  unfold State.fence; split
  · rfl
  · simp
@[simp] theorem State.fence_fuses (s : State) (k : Nat) : (s.fence k).fuses = s.fuses := by
  unfold State.fence; split
  · rfl
  · simp
@[simp] theorem State.fence_time (s : State) (k : Nat) : (s.fence k).time = s.time := by
  unfold State.fence; split
  · rfl
  · simp
@[simp] theorem State.fence_free (s : State) (k : Nat) : (s.fence k).free = s.free := by
  unfold State.fence; split
  · rfl
  · simp
@[simp] theorem State.fence_pending (s : State) (k : Nat) : (s.fence k).pending = s.pending := by
  unfold State.fence; split
  · rfl
  · simp

/-! ### Commands of the host (R389, R428) -/

/-- Without such a started command nothing happens. -/
theorem State.onCmd_absent (s : State) (h : CmdHdr) (op : BitVec 16) (l : List (Nat × Nat × Nat)) (f : State → State)
    (hn : s.hasCmd h op l = false) : s.onCmd h op l f = s := by
  unfold State.onCmd
  simp [hn]

/-- A started command of a device that is not fenced runs in the state that has given it to its family. -/
theorem State.onCmd_runs (s : State) (h : CmdHdr) (op : BitVec 16) (l : List (Nat × Nat × Nat)) (f : State → State)
    (hs : s.hasCmd h op l = true) (hf : s.log.fenced = false) : s.onCmd h op l f = f (s.takeCmd h op l) := by
  unfold State.onCmd State.takeCmd
  simp [hs, hf]

/-- The same, where every domain it needs is on. -/
theorem State.onCmdNeeds_runs (s : State) (h : CmdHdr) (op : BitVec 16) (l : List (Nat × Nat × Nat)) (need : List Nat) (f : State → State)
    (hs : s.hasCmd h op l = true) (hf : s.log.fenced = false) (hd : ∀ d ∈ need, s.domainOn d = true) :
    s.onCmdNeeds h op l need f = f (s.takeCmd h op l) := by
  have h1 : need.find? s.domDenied = none := by
    rw [List.find?_eq_none]
    intro d hm
    simp [State.domDenied, hd d hm]
  have h2 : need.filter (fun d => !s.domainOn d) = [] := by
    rw [List.filter_eq_nil_iff]
    intro d hm
    simp [hd d hm]
  unfold State.onCmdNeeds
  rw [h1, h2]
  simp [hs, hf]

theorem State.takeCmd_only (s : State) (h : CmdHdr) (op : BitVec 16) (l : List (Nat × Nat × Nat)) : OnlyHost s (s.takeCmd h op l) := rfl

/-! ### Scratchpad and package memory (R99–R102, R335) -/

@[simp] theorem State.alarm_tiles (s : State) (code level unit det : Nat) (c : Bool) (pos act : Nat) :
    (s.alarm code level unit det c pos act).tiles = s.tiles := by rw [State.alarm_only]
@[simp] theorem State.countCe_tiles (s : State) (t : TileId) (n : Nat) : (s.countCe t n).tiles = s.tiles := by
  unfold State.countCe
  split
  · rfl
  · dsimp only
    split <;> simp
@[simp] theorem State.noteUe_tiles (s : State) (t : TileId) (w k : Nat) : (s.noteUe t w k).tiles = s.tiles := rfl

/-- A write of scratchpad bytes changes those bytes and their check bits on the one tile (R99). -/
theorem State.spWrite_tile (s : State) (t : TileId) (a : Nat) (l : List Byte) : (s.spWrite t a l).tile t = (s.tile t).write a l := by
  unfold State.spWrite
  dsimp only
  rw [State.modTile_tile]
  split <;> simp [State.tile]

theorem State.spWrite_tile_ne (s : State) (t o : TileId) (a : Nat) (l : List Byte) (h : o ≠ t) : (s.spWrite t a l).tile o = s.tile o := by
  unfold State.spWrite
  dsimp only
  rw [State.modTile_tile_ne _ _ _ _ h]
  split <;> simp [State.tile]

/-- A scratchpad write keeps the canonical form. -/
theorem State.spWrite_memWf (s : State) (t o : TileId) (a : Nat) (l : List Byte) (h : memWf (s.tile o).sp = true) :
    memWf ((s.spWrite t a l).tile o).sp = true := by
  by_cases ho : o = t
  · subst ho
    rw [State.spWrite_tile]
    exact memWf_write _ _ _ h
  · rw [State.spWrite_tile_ne _ _ _ _ _ ho]
    exact h

end Sys2Proof.Machine
end

