-- ==== Sys2Proof/Laws/Units.lean ====
section
/-! SUPPORT. What the updates of the arbiters, the post plane, the crossings, the governor's records and the fabric's lanes leave alone,
field by field. -/

namespace Sys2Proof.Machine

/-! ### modArbInst -/

@[simp] theorem State.modArbInst_fuses (s : State) (cls inst : Nat) (f : ArbInst → ArbInst) : (s.modArbInst cls inst f).fuses = s.fuses := rfl
@[simp] theorem State.modArbInst_free (s : State) (cls inst : Nat) (f : ArbInst → ArbInst) : (s.modArbInst cls inst f).free = s.free := rfl
@[simp] theorem State.modArbInst_time (s : State) (cls inst : Nat) (f : ArbInst → ArbInst) : (s.modArbInst cls inst f).time = s.time := rfl
@[simp] theorem State.modArbInst_tiles (s : State) (cls inst : Nat) (f : ArbInst → ArbInst) : (s.modArbInst cls inst f).tiles = s.tiles := rfl
@[simp] theorem State.modArbInst_clusters (s : State) (cls inst : Nat) (f : ArbInst → ArbInst) : (s.modArbInst cls inst f).clusters = s.clusters := rfl
@[simp] theorem State.modArbInst_regions (s : State) (cls inst : Nat) (f : ArbInst → ArbInst) : (s.modArbInst cls inst f).regions = s.regions := rfl
@[simp] theorem State.modArbInst_zones (s : State) (cls inst : Nat) (f : ArbInst → ArbInst) : (s.modArbInst cls inst f).zones = s.zones := rfl
@[simp] theorem State.modArbInst_tracks (s : State) (cls inst : Nat) (f : ArbInst → ArbInst) : (s.modArbInst cls inst f).tracks = s.tracks := rfl
@[simp] theorem State.modArbInst_log (s : State) (cls inst : Nat) (f : ArbInst → ArbInst) : (s.modArbInst cls inst f).log = s.log := rfl
@[simp] theorem State.modArbInst_memory (s : State) (cls inst : Nat) (f : ArbInst → ArbInst) : (s.modArbInst cls inst f).memory = s.memory := rfl
@[simp] theorem State.modArbInst_host (s : State) (cls inst : Nat) (f : ArbInst → ArbInst) : (s.modArbInst cls inst f).host = s.host := rfl
@[simp] theorem State.modArbInst_fabric (s : State) (cls inst : Nat) (f : ArbInst → ArbInst) : (s.modArbInst cls inst f).fabric = s.fabric := rfl
@[simp] theorem State.modArbInst_post (s : State) (cls inst : Nat) (f : ArbInst → ArbInst) : (s.modArbInst cls inst f).post = s.post := rfl
@[simp] theorem State.modArbInst_xgroups (s : State) (cls inst : Nat) (f : ArbInst → ArbInst) : (s.modArbInst cls inst f).xgroups = s.xgroups := rfl
@[simp] theorem State.modArbInst_power (s : State) (cls inst : Nat) (f : ArbInst → ArbInst) : (s.modArbInst cls inst f).power = s.power := rfl
@[simp] theorem State.modArbInst_chip (s : State) (cls inst : Nat) (f : ArbInst → ArbInst) : (s.modArbInst cls inst f).chip = s.chip := rfl
@[simp] theorem State.modArbInst_dbg (s : State) (cls inst : Nat) (f : ArbInst → ArbInst) : (s.modArbInst cls inst f).dbg = s.dbg := rfl
@[simp] theorem State.modArbInst_pending (s : State) (cls inst : Nat) (f : ArbInst → ArbInst) : (s.modArbInst cls inst f).pending = s.pending := rfl

/-! ### modPlane -/

@[simp] theorem State.modPlane_fuses (s : State) (k : MsgKey) (f : PlaneMsg → PlaneMsg) : (s.modPlane k f).fuses = s.fuses := rfl
@[simp] theorem State.modPlane_free (s : State) (k : MsgKey) (f : PlaneMsg → PlaneMsg) : (s.modPlane k f).free = s.free := rfl
@[simp] theorem State.modPlane_time (s : State) (k : MsgKey) (f : PlaneMsg → PlaneMsg) : (s.modPlane k f).time = s.time := rfl
@[simp] theorem State.modPlane_tiles (s : State) (k : MsgKey) (f : PlaneMsg → PlaneMsg) : (s.modPlane k f).tiles = s.tiles := rfl
@[simp] theorem State.modPlane_clusters (s : State) (k : MsgKey) (f : PlaneMsg → PlaneMsg) : (s.modPlane k f).clusters = s.clusters := rfl
@[simp] theorem State.modPlane_regions (s : State) (k : MsgKey) (f : PlaneMsg → PlaneMsg) : (s.modPlane k f).regions = s.regions := rfl
@[simp] theorem State.modPlane_zones (s : State) (k : MsgKey) (f : PlaneMsg → PlaneMsg) : (s.modPlane k f).zones = s.zones := rfl
@[simp] theorem State.modPlane_tracks (s : State) (k : MsgKey) (f : PlaneMsg → PlaneMsg) : (s.modPlane k f).tracks = s.tracks := rfl
@[simp] theorem State.modPlane_log (s : State) (k : MsgKey) (f : PlaneMsg → PlaneMsg) : (s.modPlane k f).log = s.log := rfl
@[simp] theorem State.modPlane_memory (s : State) (k : MsgKey) (f : PlaneMsg → PlaneMsg) : (s.modPlane k f).memory = s.memory := rfl
@[simp] theorem State.modPlane_host (s : State) (k : MsgKey) (f : PlaneMsg → PlaneMsg) : (s.modPlane k f).host = s.host := rfl
@[simp] theorem State.modPlane_arb (s : State) (k : MsgKey) (f : PlaneMsg → PlaneMsg) : (s.modPlane k f).arb = s.arb := rfl
@[simp] theorem State.modPlane_fabric (s : State) (k : MsgKey) (f : PlaneMsg → PlaneMsg) : (s.modPlane k f).fabric = s.fabric := rfl
@[simp] theorem State.modPlane_xgroups (s : State) (k : MsgKey) (f : PlaneMsg → PlaneMsg) : (s.modPlane k f).xgroups = s.xgroups := rfl
@[simp] theorem State.modPlane_power (s : State) (k : MsgKey) (f : PlaneMsg → PlaneMsg) : (s.modPlane k f).power = s.power := rfl
@[simp] theorem State.modPlane_chip (s : State) (k : MsgKey) (f : PlaneMsg → PlaneMsg) : (s.modPlane k f).chip = s.chip := rfl
@[simp] theorem State.modPlane_dbg (s : State) (k : MsgKey) (f : PlaneMsg → PlaneMsg) : (s.modPlane k f).dbg = s.dbg := rfl
@[simp] theorem State.modPlane_pending (s : State) (k : MsgKey) (f : PlaneMsg → PlaneMsg) : (s.modPlane k f).pending = s.pending := rfl

/-! ### modCrossing -/

@[simp] theorem State.modCrossing_fuses (s : State) (src g : Nat) (f : Crossing → Crossing) : (s.modCrossing src g f).fuses = s.fuses := rfl
@[simp] theorem State.modCrossing_free (s : State) (src g : Nat) (f : Crossing → Crossing) : (s.modCrossing src g f).free = s.free := rfl
@[simp] theorem State.modCrossing_time (s : State) (src g : Nat) (f : Crossing → Crossing) : (s.modCrossing src g f).time = s.time := rfl
@[simp] theorem State.modCrossing_tiles (s : State) (src g : Nat) (f : Crossing → Crossing) : (s.modCrossing src g f).tiles = s.tiles := rfl
@[simp] theorem State.modCrossing_clusters (s : State) (src g : Nat) (f : Crossing → Crossing) : (s.modCrossing src g f).clusters = s.clusters := rfl
@[simp] theorem State.modCrossing_zones (s : State) (src g : Nat) (f : Crossing → Crossing) : (s.modCrossing src g f).zones = s.zones := rfl
@[simp] theorem State.modCrossing_tracks (s : State) (src g : Nat) (f : Crossing → Crossing) : (s.modCrossing src g f).tracks = s.tracks := rfl
@[simp] theorem State.modCrossing_log (s : State) (src g : Nat) (f : Crossing → Crossing) : (s.modCrossing src g f).log = s.log := rfl
@[simp] theorem State.modCrossing_memory (s : State) (src g : Nat) (f : Crossing → Crossing) : (s.modCrossing src g f).memory = s.memory := rfl
@[simp] theorem State.modCrossing_host (s : State) (src g : Nat) (f : Crossing → Crossing) : (s.modCrossing src g f).host = s.host := rfl
@[simp] theorem State.modCrossing_arb (s : State) (src g : Nat) (f : Crossing → Crossing) : (s.modCrossing src g f).arb = s.arb := rfl
@[simp] theorem State.modCrossing_fabric (s : State) (src g : Nat) (f : Crossing → Crossing) : (s.modCrossing src g f).fabric = s.fabric := rfl
@[simp] theorem State.modCrossing_post (s : State) (src g : Nat) (f : Crossing → Crossing) : (s.modCrossing src g f).post = s.post := rfl
@[simp] theorem State.modCrossing_xgroups (s : State) (src g : Nat) (f : Crossing → Crossing) : (s.modCrossing src g f).xgroups = s.xgroups := rfl
@[simp] theorem State.modCrossing_power (s : State) (src g : Nat) (f : Crossing → Crossing) : (s.modCrossing src g f).power = s.power := rfl
@[simp] theorem State.modCrossing_chip (s : State) (src g : Nat) (f : Crossing → Crossing) : (s.modCrossing src g f).chip = s.chip := rfl
@[simp] theorem State.modCrossing_dbg (s : State) (src g : Nat) (f : Crossing → Crossing) : (s.modCrossing src g f).dbg = s.dbg := rfl
@[simp] theorem State.modCrossing_pending (s : State) (src g : Nat) (f : Crossing → Crossing) : (s.modCrossing src g f).pending = s.pending := rfl

/-! ### modMargin -/

@[simp] theorem State.modMargin_fuses (s : State) (p : Nat) (f : Margin → Margin) : (s.modMargin p f).fuses = s.fuses := rfl
@[simp] theorem State.modMargin_free (s : State) (p : Nat) (f : Margin → Margin) : (s.modMargin p f).free = s.free := rfl
@[simp] theorem State.modMargin_time (s : State) (p : Nat) (f : Margin → Margin) : (s.modMargin p f).time = s.time := rfl
@[simp] theorem State.modMargin_tiles (s : State) (p : Nat) (f : Margin → Margin) : (s.modMargin p f).tiles = s.tiles := rfl
@[simp] theorem State.modMargin_clusters (s : State) (p : Nat) (f : Margin → Margin) : (s.modMargin p f).clusters = s.clusters := rfl
@[simp] theorem State.modMargin_regions (s : State) (p : Nat) (f : Margin → Margin) : (s.modMargin p f).regions = s.regions := rfl
@[simp] theorem State.modMargin_zones (s : State) (p : Nat) (f : Margin → Margin) : (s.modMargin p f).zones = s.zones := rfl
@[simp] theorem State.modMargin_tracks (s : State) (p : Nat) (f : Margin → Margin) : (s.modMargin p f).tracks = s.tracks := rfl
@[simp] theorem State.modMargin_log (s : State) (p : Nat) (f : Margin → Margin) : (s.modMargin p f).log = s.log := rfl
@[simp] theorem State.modMargin_memory (s : State) (p : Nat) (f : Margin → Margin) : (s.modMargin p f).memory = s.memory := rfl
@[simp] theorem State.modMargin_host (s : State) (p : Nat) (f : Margin → Margin) : (s.modMargin p f).host = s.host := rfl
@[simp] theorem State.modMargin_arb (s : State) (p : Nat) (f : Margin → Margin) : (s.modMargin p f).arb = s.arb := rfl
@[simp] theorem State.modMargin_post (s : State) (p : Nat) (f : Margin → Margin) : (s.modMargin p f).post = s.post := rfl
@[simp] theorem State.modMargin_xgroups (s : State) (p : Nat) (f : Margin → Margin) : (s.modMargin p f).xgroups = s.xgroups := rfl
@[simp] theorem State.modMargin_power (s : State) (p : Nat) (f : Margin → Margin) : (s.modMargin p f).power = s.power := rfl
@[simp] theorem State.modMargin_chip (s : State) (p : Nat) (f : Margin → Margin) : (s.modMargin p f).chip = s.chip := rfl
@[simp] theorem State.modMargin_dbg (s : State) (p : Nat) (f : Margin → Margin) : (s.modMargin p f).dbg = s.dbg := rfl
@[simp] theorem State.modMargin_pending (s : State) (p : Nat) (f : Margin → Margin) : (s.modMargin p f).pending = s.pending := rfl

/-! ### modPhaseRec -/

@[simp] theorem State.modPhaseRec_fuses (s : State) (r : Nat) (f : PhaseRec → PhaseRec) : (s.modPhaseRec r f).fuses = s.fuses := rfl
@[simp] theorem State.modPhaseRec_free (s : State) (r : Nat) (f : PhaseRec → PhaseRec) : (s.modPhaseRec r f).free = s.free := rfl
@[simp] theorem State.modPhaseRec_time (s : State) (r : Nat) (f : PhaseRec → PhaseRec) : (s.modPhaseRec r f).time = s.time := rfl
@[simp] theorem State.modPhaseRec_tiles (s : State) (r : Nat) (f : PhaseRec → PhaseRec) : (s.modPhaseRec r f).tiles = s.tiles := rfl
@[simp] theorem State.modPhaseRec_clusters (s : State) (r : Nat) (f : PhaseRec → PhaseRec) : (s.modPhaseRec r f).clusters = s.clusters := rfl
@[simp] theorem State.modPhaseRec_regions (s : State) (r : Nat) (f : PhaseRec → PhaseRec) : (s.modPhaseRec r f).regions = s.regions := rfl
@[simp] theorem State.modPhaseRec_zones (s : State) (r : Nat) (f : PhaseRec → PhaseRec) : (s.modPhaseRec r f).zones = s.zones := rfl
@[simp] theorem State.modPhaseRec_tracks (s : State) (r : Nat) (f : PhaseRec → PhaseRec) : (s.modPhaseRec r f).tracks = s.tracks := rfl
@[simp] theorem State.modPhaseRec_log (s : State) (r : Nat) (f : PhaseRec → PhaseRec) : (s.modPhaseRec r f).log = s.log := rfl
@[simp] theorem State.modPhaseRec_memory (s : State) (r : Nat) (f : PhaseRec → PhaseRec) : (s.modPhaseRec r f).memory = s.memory := rfl
@[simp] theorem State.modPhaseRec_host (s : State) (r : Nat) (f : PhaseRec → PhaseRec) : (s.modPhaseRec r f).host = s.host := rfl
@[simp] theorem State.modPhaseRec_arb (s : State) (r : Nat) (f : PhaseRec → PhaseRec) : (s.modPhaseRec r f).arb = s.arb := rfl
@[simp] theorem State.modPhaseRec_fabric (s : State) (r : Nat) (f : PhaseRec → PhaseRec) : (s.modPhaseRec r f).fabric = s.fabric := rfl
@[simp] theorem State.modPhaseRec_post (s : State) (r : Nat) (f : PhaseRec → PhaseRec) : (s.modPhaseRec r f).post = s.post := rfl
@[simp] theorem State.modPhaseRec_xgroups (s : State) (r : Nat) (f : PhaseRec → PhaseRec) : (s.modPhaseRec r f).xgroups = s.xgroups := rfl
@[simp] theorem State.modPhaseRec_chip (s : State) (r : Nat) (f : PhaseRec → PhaseRec) : (s.modPhaseRec r f).chip = s.chip := rfl
@[simp] theorem State.modPhaseRec_dbg (s : State) (r : Nat) (f : PhaseRec → PhaseRec) : (s.modPhaseRec r f).dbg = s.dbg := rfl
@[simp] theorem State.modPhaseRec_pending (s : State) (r : Nat) (f : PhaseRec → PhaseRec) : (s.modPhaseRec r f).pending = s.pending := rfl

/-! ### modZonePower -/

@[simp] theorem State.modZonePower_fuses (s : State) (z : Nat) (f : ZonePower → ZonePower) : (s.modZonePower z f).fuses = s.fuses := rfl
@[simp] theorem State.modZonePower_free (s : State) (z : Nat) (f : ZonePower → ZonePower) : (s.modZonePower z f).free = s.free := rfl
@[simp] theorem State.modZonePower_time (s : State) (z : Nat) (f : ZonePower → ZonePower) : (s.modZonePower z f).time = s.time := rfl
@[simp] theorem State.modZonePower_tiles (s : State) (z : Nat) (f : ZonePower → ZonePower) : (s.modZonePower z f).tiles = s.tiles := rfl
@[simp] theorem State.modZonePower_clusters (s : State) (z : Nat) (f : ZonePower → ZonePower) : (s.modZonePower z f).clusters = s.clusters := rfl
@[simp] theorem State.modZonePower_regions (s : State) (z : Nat) (f : ZonePower → ZonePower) : (s.modZonePower z f).regions = s.regions := rfl
@[simp] theorem State.modZonePower_zones (s : State) (z : Nat) (f : ZonePower → ZonePower) : (s.modZonePower z f).zones = s.zones := rfl
@[simp] theorem State.modZonePower_tracks (s : State) (z : Nat) (f : ZonePower → ZonePower) : (s.modZonePower z f).tracks = s.tracks := rfl
@[simp] theorem State.modZonePower_log (s : State) (z : Nat) (f : ZonePower → ZonePower) : (s.modZonePower z f).log = s.log := rfl
@[simp] theorem State.modZonePower_memory (s : State) (z : Nat) (f : ZonePower → ZonePower) : (s.modZonePower z f).memory = s.memory := rfl
@[simp] theorem State.modZonePower_host (s : State) (z : Nat) (f : ZonePower → ZonePower) : (s.modZonePower z f).host = s.host := rfl
@[simp] theorem State.modZonePower_arb (s : State) (z : Nat) (f : ZonePower → ZonePower) : (s.modZonePower z f).arb = s.arb := rfl
@[simp] theorem State.modZonePower_fabric (s : State) (z : Nat) (f : ZonePower → ZonePower) : (s.modZonePower z f).fabric = s.fabric := rfl
@[simp] theorem State.modZonePower_post (s : State) (z : Nat) (f : ZonePower → ZonePower) : (s.modZonePower z f).post = s.post := rfl
@[simp] theorem State.modZonePower_xgroups (s : State) (z : Nat) (f : ZonePower → ZonePower) : (s.modZonePower z f).xgroups = s.xgroups := rfl
@[simp] theorem State.modZonePower_chip (s : State) (z : Nat) (f : ZonePower → ZonePower) : (s.modZonePower z f).chip = s.chip := rfl
@[simp] theorem State.modZonePower_dbg (s : State) (z : Nat) (f : ZonePower → ZonePower) : (s.modZonePower z f).dbg = s.dbg := rfl
@[simp] theorem State.modZonePower_pending (s : State) (z : Nat) (f : ZonePower → ZonePower) : (s.modZonePower z f).pending = s.pending := rfl

/-! ### toWire -/

@[simp] theorem State.toWire_fuses (s : State) (w : WireOut) : (s.toWire w).fuses = s.fuses := rfl
@[simp] theorem State.toWire_free (s : State) (w : WireOut) : (s.toWire w).free = s.free := rfl
@[simp] theorem State.toWire_time (s : State) (w : WireOut) : (s.toWire w).time = s.time := rfl
@[simp] theorem State.toWire_tiles (s : State) (w : WireOut) : (s.toWire w).tiles = s.tiles := rfl
@[simp] theorem State.toWire_clusters (s : State) (w : WireOut) : (s.toWire w).clusters = s.clusters := rfl
@[simp] theorem State.toWire_regions (s : State) (w : WireOut) : (s.toWire w).regions = s.regions := rfl
@[simp] theorem State.toWire_zones (s : State) (w : WireOut) : (s.toWire w).zones = s.zones := rfl
@[simp] theorem State.toWire_tracks (s : State) (w : WireOut) : (s.toWire w).tracks = s.tracks := rfl
@[simp] theorem State.toWire_log (s : State) (w : WireOut) : (s.toWire w).log = s.log := rfl
@[simp] theorem State.toWire_memory (s : State) (w : WireOut) : (s.toWire w).memory = s.memory := rfl
@[simp] theorem State.toWire_host (s : State) (w : WireOut) : (s.toWire w).host = s.host := rfl
@[simp] theorem State.toWire_arb (s : State) (w : WireOut) : (s.toWire w).arb = s.arb := rfl
@[simp] theorem State.toWire_post (s : State) (w : WireOut) : (s.toWire w).post = s.post := rfl
@[simp] theorem State.toWire_xgroups (s : State) (w : WireOut) : (s.toWire w).xgroups = s.xgroups := rfl
@[simp] theorem State.toWire_power (s : State) (w : WireOut) : (s.toWire w).power = s.power := rfl
@[simp] theorem State.toWire_chip (s : State) (w : WireOut) : (s.toWire w).chip = s.chip := rfl
@[simp] theorem State.toWire_dbg (s : State) (w : WireOut) : (s.toWire w).dbg = s.dbg := rfl
@[simp] theorem State.toWire_pending (s : State) (w : WireOut) : (s.toWire w).pending = s.pending := rfl

/-! ### putWord -/

@[simp] theorem State.putWord_fuses (s : State) (e kind : Nat) (bytes : List Byte) : (s.putWord e kind bytes).fuses = s.fuses := rfl
@[simp] theorem State.putWord_free (s : State) (e kind : Nat) (bytes : List Byte) : (s.putWord e kind bytes).free = s.free := rfl
@[simp] theorem State.putWord_time (s : State) (e kind : Nat) (bytes : List Byte) : (s.putWord e kind bytes).time = s.time := rfl
@[simp] theorem State.putWord_tiles (s : State) (e kind : Nat) (bytes : List Byte) : (s.putWord e kind bytes).tiles = s.tiles := rfl
@[simp] theorem State.putWord_clusters (s : State) (e kind : Nat) (bytes : List Byte) : (s.putWord e kind bytes).clusters = s.clusters := rfl
@[simp] theorem State.putWord_regions (s : State) (e kind : Nat) (bytes : List Byte) : (s.putWord e kind bytes).regions = s.regions := rfl
@[simp] theorem State.putWord_zones (s : State) (e kind : Nat) (bytes : List Byte) : (s.putWord e kind bytes).zones = s.zones := rfl
@[simp] theorem State.putWord_tracks (s : State) (e kind : Nat) (bytes : List Byte) : (s.putWord e kind bytes).tracks = s.tracks := rfl
@[simp] theorem State.putWord_log (s : State) (e kind : Nat) (bytes : List Byte) : (s.putWord e kind bytes).log = s.log := rfl
@[simp] theorem State.putWord_memory (s : State) (e kind : Nat) (bytes : List Byte) : (s.putWord e kind bytes).memory = s.memory := rfl
@[simp] theorem State.putWord_host (s : State) (e kind : Nat) (bytes : List Byte) : (s.putWord e kind bytes).host = s.host := rfl
@[simp] theorem State.putWord_arb (s : State) (e kind : Nat) (bytes : List Byte) : (s.putWord e kind bytes).arb = s.arb := rfl
@[simp] theorem State.putWord_post (s : State) (e kind : Nat) (bytes : List Byte) : (s.putWord e kind bytes).post = s.post := rfl
@[simp] theorem State.putWord_xgroups (s : State) (e kind : Nat) (bytes : List Byte) : (s.putWord e kind bytes).xgroups = s.xgroups := rfl
@[simp] theorem State.putWord_power (s : State) (e kind : Nat) (bytes : List Byte) : (s.putWord e kind bytes).power = s.power := rfl
@[simp] theorem State.putWord_chip (s : State) (e kind : Nat) (bytes : List Byte) : (s.putWord e kind bytes).chip = s.chip := rfl
@[simp] theorem State.putWord_dbg (s : State) (e kind : Nat) (bytes : List Byte) : (s.putWord e kind bytes).dbg = s.dbg := rfl
@[simp] theorem State.putWord_pending (s : State) (e kind : Nat) (bytes : List Byte) : (s.putWord e kind bytes).pending = s.pending := rfl

/-! ### Flits -/

/-- Only the fabric may differ. -/
def OnlyFabric (s u : State) : Prop := u = { s with fabric := u.fabric }

theorem OnlyFabric.refl (s : State) : OnlyFabric s s := rfl
theorem OnlyFabric.trans {s u v : State} (h : OnlyFabric s u) (g : OnlyFabric u v) : OnlyFabric s v := by
  unfold OnlyFabric at *; rw [g, h]

theorem State.modHalf_fabricOnly (s : State) (e : Nat) (f : Half → Half) : OnlyFabric s (s.modHalf e f) := rfl
theorem State.putWord_fabricOnly (s : State) (e kind : Nat) (bytes : List Byte) : OnlyFabric s (s.putWord e kind bytes) := rfl

/-- A flit that leaves changes the fabric only: its codewords go to the wire, an ALIGN codeword before them where one is due. -/
theorem State.sendFlit_fabricOnly (s : State) (e : Nat) (f : Flit) : OnlyFabric s (s.sendFlit e f) := by
  unfold State.sendFlit
  split
  · exact .refl s
  · split
    · exact (s.putWord_fabricOnly e 1 _).trans (State.putWord_fabricOnly _ e 0 _)
    · exact s.putWord_fabricOnly e 0 _

/-- A DATA flit that leaves changes the fabric only. -/
theorem State.sendData_fabricOnly (s : State) (e : Nat) (slots : List FlitSlot) : OnlyFabric s (s.sendData e slots) := by
  unfold State.sendData
  split
  · exact .refl s
  · exact (s.sendFlit_fabricOnly e _).trans (State.modHalf_fabricOnly _ e _)

end Sys2Proof.Machine
end

