-- ==== Sys2Proof/WellFormed.lean ====
section
/-! DEFINITION. Which commands are well formed: every operand lies in the range that the field it stands for can hold, or names a unit
that exists (R11, R18, R30, R303, R332, R354, R413, R424, R446). A command that is not well formed stands for nothing that can be sent to the
block; the machine gives every command a meaning all the same, and those meanings repeat the checks that the rules make. -/

namespace Sys2Proof

/-- Every operand of the command is in range. -/
def Instr.wellFormed (i : Instr) : Bool :=
  match i with
  | .nop _ => true
  | .brk _ _ => true
  | .ibinv _ => true
  | .tend _ => true
  | .sync _ _ => true
  | .sig _ _ => true
  | .fence _ _ _ => true
  | .add _ _ _ _ => true
  | .sub _ _ _ _ => true
  | .and _ _ _ _ => true
  | .or _ _ _ _ => true
  | .xor _ _ _ _ => true
  | .sll _ _ _ _ => true
  | .srl _ _ _ _ => true
  | .sra _ _ _ _ => true
  | .slt _ _ _ _ => true
  | .sltu _ _ _ _ => true
  | .min _ _ _ _ => true
  | .max _ _ _ _ => true
  | .minu _ _ _ _ => true
  | .maxu _ _ _ _ => true
  | .mul _ _ _ _ => true
  | .mulh _ _ _ _ => true
  | .mulhu _ _ _ _ => true
  | .div _ _ _ _ => true
  | .divu _ _ _ _ => true
  | .rem _ _ _ _ => true
  | .remu _ _ _ _ => true
  | .clz _ _ _ => true
  | .ctz _ _ _ => true
  | .popc _ _ _ => true
  | .addi _ _ _ _ => true
  | .andi _ _ _ _ => true
  | .ori _ _ _ _ => true
  | .xori _ _ _ _ => true
  | .slli _ _ _ _ => true
  | .srli _ _ _ _ => true
  | .srai _ _ _ _ => true
  | .slti _ _ _ _ => true
  | .sltiu _ _ _ _ => true
  | .li _ _ _ => true
  | .lih _ _ _ _ => true
  | .pcadd _ _ _ => true
  | .ext _ _ _ _ => true
  | .lb _ _ _ => true
  | .lbu _ _ _ => true
  | .lh _ _ _ => true
  | .lhu _ _ _ => true
  | .lw _ _ _ => true
  | .lwu _ _ _ => true
  | .ld _ _ _ => true
  | .sb _ _ _ => true
  | .sh _ _ _ => true
  | .sw _ _ _ => true
  | .sd _ _ _ => true
  | .beq _ _ _ _ => true
  | .bne _ _ _ _ => true
  | .blt _ _ _ _ => true
  | .bge _ _ _ _ => true
  | .bltu _ _ _ _ => true
  | .bgeu _ _ _ _ => true
  | .jal _ _ _ => true
  | .jalr _ _ _ _ => true
  | .trd _ _ _ => true
  | .twr _ _ _ => true
  | .twri _ _ _ => true
  | .illegalInstruction _ _ => true
  | .tCrnCfgWrite _ _ _ => true
  | .tStpTn6Access _ _ => true
  | .mstat _ _ _ => true
  | .mmul _ _ _ => true
  | .mread _ _ _ => true
  | .vadd _ _ _ => true
  | .vsub _ _ _ => true
  | .vmul _ _ _ => true
  | .vdiv _ _ _ => true
  | .vsqrt _ _ _ => true
  | .vfma _ _ _ => true
  | .vfms _ _ _ => true
  | .vfnma _ _ _ => true
  | .vrem _ _ _ => true
  | .vmin _ _ _ => true
  | .vmax _ _ _ => true
  | .vminnum _ _ _ => true
  | .vmaxnum _ _ _ => true
  | .vrint _ _ _ => true
  | .vscaleb _ _ _ => true
  | .vlogb _ _ _ => true
  | .vnext _ _ _ => true
  | .vcmp _ _ _ => true
  | .vclass _ _ _ => true
  | .vsgn _ _ _ => true
  | .vcvtr _ _ _ _ _ => true
  | .viadd _ _ _ => true
  | .visub _ _ _ => true
  | .vimul _ _ _ => true
  | .vand _ _ _ => true
  | .vor _ _ _ => true
  | .vxor _ _ _ => true
  | .vshl _ _ _ => true
  | .vshr _ _ _ => true
  | .vimin _ _ _ => true
  | .vimax _ _ _ => true
  | .vicmp _ _ _ => true
  | .vsel _ _ _ => true
  | .vsplat _ _ _ => true
  | .vperm _ _ _ => true
  | .vred _ _ _ => true
  | .vsf _ _ _ => true
  | .vgumbel _ _ _ _ _ => true
  | .vld _ _ _ => true
  | .vst _ _ _ _ _ _ => true
  | .vldl _ _ _ _ _ _ _ => true
  | .vstl _ _ _ _ _ _ _ => true
  | .vstg _ _ _ _ => true
  | .vcvt _ _ _ => true
  | .vsplit32 _ _ _ _ _ _ _ => true
  | .vslice64 _ _ _ _ _ _ _ _ _ => true
  | .vsample _ _ _ => true
  | .rraw128 _ _ _ => true
  | .rraw32 _ _ _ => true
  | .runi _ _ _ => true
  | .rbern _ _ _ => true
  | .xrun _ _ _ _ => true
  | .psend _ _ _ => true
  | .sdesc _ _ _ => true
  | .sget _ _ _ => true
  | .sput _ _ _ => true
  | .samo _ _ _ => true
  | .sflag _ _ _ _ _ _ => true
  | .engineInstructionStart _ eng => decide (1 ≤ eng ∧ eng ≤ 3)
  | .engineInstructionFinish _ eng => decide (1 ≤ eng ∧ eng ≤ 3)
  | .instructionFill _ line => decide (line < 16384)
  | .auditCheck _ => true
  | .scrubStep _ => true
  | .spCeClear region cluster pos => decide (region < 16 ∧ cluster < 9 ∧ pos < 17)
  | .syncArrival _ => true
  | .exchangeSend _ => true
  | .exchangeReceive _ => true
  | .endDecision _ => true
  | .evictSaveDone _ _ => true
  | .computeDroopTrip region => decide (region < 16)
  | .computeDroopEnd region => decide (region < 16)
  | .packageDroopTrip => true
  | .packageDroopEnd => true
  | .refclkLoss => true
  | .stewardHeartbeat region => decide (region < 16)
  | .heartbeatTimeout region => decide (region < 16)
  | .crossingDrift src region _ => decide (src < 16 ∧ region < 16)
  | .crossingRecenter src region _ _ => decide (src < 16 ∧ region < 16)
  | .crossingSlip src region _ => decide (src < 16 ∧ region < 16)
  | .xcalRecenterRequest region _ => decide (region < 16)
  | .xmonClear region _ => decide (region < 16)
  | .postSendAccept _ _ => true
  | .postMessageArrive m _ => decide (m.len ≤ 8 ∧ m.payload.length = 32 * m.len.toNat)
  | .nackRecordArrive _ => true
  | .postackReceive _ => true
  | .postTimeout _ _ _ => true
  | .arbiterGrant cls inst _ _ => decide (cls < 9 ∧ inst < 2304)
  | .ageTick => true
  | .ageOldMark cls inst input => decide (cls < 9 ∧ inst < 2304 ∧ input < 289)
  | .arbCommit _ => true
  | .arbMgmtHold _ => true
  | .streamAccept _ _ => true
  | .translationWalk _ _ slot => decide (slot < 32)
  | .hbmRead addr => decide (addr < 2 ^ 39)
  | .hbmWrite addr off data _ => decide (addr < 2 ^ 39 ∧ off + data.length ≤ 64)
  | .hbmAtomic addr _ _ _ => decide (addr < 2 ^ 39 ∧ addr % 8 = 0)
  | .hbmRowClose stack row => decide (stack < 8 ∧ row < 524288)
  | .hbmRefresh stack _ => decide (stack < 8)
  | .hostWindowRequest _ => true
  | .streamComplete _ _ slot => decide (slot < 32)
  | .fenceOrderingPoint _ _ slot => decide (slot < 32)
  | .xlatInvalidate region _ => decide (region < 16)
  | .xlatInvalidateDone region => decide (region < 16)
  | .interleaveChange _ => true
  | .interleaveFillDone => true
  | .memCeClear stack _ => decide (stack < 8)
  | .linkSignalDetect e => decide (e < 64)
  | .autonegDone e _ _ => decide (e < 64)
  | .linkTrainDone e _ => decide (e < 64)
  | .linkAlignDone e => decide (e < 64)
  | .helloReceive e _ => decide (e < 64)
  | .linkStateTimeout e => decide (e < 64)
  | .retrainPauseEnd e => decide (e < 64)
  | .flitReceive e lanes => decide (e < 64 ∧ (lanes.map (·.length) = List.replicate 16 34 ∨ lanes.map (·.length) = List.replicate 8 68))
  | .ackTimer e => decide (e < 64)
  | .nakRepeat e => decide (e < 64)
  | .replayTimeout e => decide (e < 64)
  | .creditStall e _ _ => decide (e < 64)
  | .transportPacketIngress e => decide (e < 64)
  | .packetEgress _ => true
  | .egressHoldExpiry _ => true
  | .failoverHoldEnd _ => true
  | .memRequestTimeout _ => true
  | .linkDown e => decide (e < 64)
  | .routeDiscovery links _ _ =>
    links.all fun l => decide (l.a < 32768) && decide (l.b < 32768) && decide (l.ea < 64) && decide (l.eb < 64)
  | .controlRequestTimeout _ => true
  | .fabPortEnable p _ => decide (p < 32)
  | .fabPortRetrain p _ => decide (p < 32)
  | .fabCntClear p _ => decide (p < 32)
  | .marginStart p _ => decide (p < 32)
  | .marginStop p _ => decide (p < 32)
  | .marginPointDone p _ => decide (p < 32)
  | .deviceIdSet _ => true
  | .routeTableRead _ => true
  | .routeTableWrite _ => true
  | .fabLateClear _ => true
  | .xsyncArriveReceive _ _ => true
  | .xsyncReleaseReceive _ => true
  | .xsyncReleaseWaitEnd _ => true
  | .xsyncAbortReceive _ _ => true
  | .xsyncArriveRepeat _ => true
  | .xsyncPeerLost _ _ => true
  | .xsyncProbeReceive _ _ => true
  | .xsyncEchoReceive _ _ _ => true
  | .xsyncEchoTimeout _ => true
  | .xsyncWalkMessage _ _ => true
  | .xsyncSweepStart _ _ => true
  | .xsyncBreakReport _ _ _ _ _ _ => true
  | .fabXsyncLateClear _ _ => true
  | .domainIdleExpiry dom => decide (dom < 207)
  | .domainSwitchOnDone dom => decide (dom < 207)
  | .domainRequestWrite _ _ => true
  | .powerSample _ => true
  | .monitorCalibration _ => true
  | .phaseEntryRecompute _ _ => true
  | .shareRecompute => true
  | .clockCodeStep region => decide (region < 16)
  | .junctionSensorRead die sensor _ => decide (die < 2 ∧ sensor < 64)
  | .thermalCapStep die => decide (die < 2)
  | .hbmTemperatureReport stack _ => decide (stack < 8)
  | .thermalTrip die sensor _ => decide (die < 2 ∧ sensor < 64)
  | .pwrCapWrite _ => true
  | .pwrExcessClear _ => true
  | .sqTailDoorbell q _ => decide (q < 64)
  | .cqHeadDoorbell q _ => decide (q < 64)
  | .commandFetch q => decide (q < 64)
  | .coalesceTimeout q => decide (q < 64)
  | .commandTimeout q _ => decide (q < 64)
  | .adminQueueEnable _ => true
  | .bar2Read _ len => decide (len < 2 ^ 64)
  | .bar2Write _ _ _ => true
  | .bar0BadAccess => true
  | .bar0PairLowRead off => decide (off < 0x4000000 ∧ off % 4 = 0)
  | .bar0PairHighWrite off _ => decide (off < 0x4000000 ∧ off % 4 = 0)
  | .bar0PairLowWrite off _ => decide (off < 0x4000000 ∧ off % 4 = 0)
  | .registerWrite off _ => decide (off < 0x4000000)
  | .hostPowerState _ => true
  | .identify h => decide (h.queue < 64)
  | .negotiate h _ => decide (h.queue < 64)
  | .setConfig h _ _ _ => decide (h.queue < 64)
  | .queueCreate h p => decide (h.queue < 64 ∧ p.queue < 64 ∧ p.vector < 64)
  | .queueDelete h q => decide (h.queue < 64 ∧ q < 64)
  | .tablePool h base len => decide (h.queue < 64 ∧ base < 2 ^ 64 ∧ len < 2 ^ 64)
  | .map h p => decide (h.queue < 64 ∧ p.va < 2 ^ 64 ∧ p.pa < 2 ^ 64 ∧ p.len < 2 ^ 64)
  | .unmap h _ va len => decide (h.queue < 64 ∧ va < 2 ^ 64 ∧ len < 2 ^ 64)
  | .translate h _ va => decide (h.queue < 64 ∧ va < 2 ^ 64)
  | .copy h _ _ src dst len => decide (h.queue < 64 ∧ src < 2 ^ 64 ∧ dst < 2 ^ 64 ∧ len < 2 ^ 64)
  | .fill h dst _ len => decide (h.queue < 64 ∧ dst < 2 ^ 64 ∧ len < 2 ^ 64)
  | .resume h _ _ _ => decide (h.queue < 64)
  | .proof h _ _ _ => decide (h.queue < 64)
  | .load h _ _ _ => decide (h.queue < 64)
  | .start h p => decide (h.queue < 64 ∧ p.args.length ≤ 4)
  | .stop h _ _ _ => decide (h.queue < 64)
  | .yield h _ _ => decide (h.queue < 64)
  | .evict h _ _ area len => decide (h.queue < 64 ∧ area < 2 ^ 64 ∧ len < 2 ^ 64)
  | .restore h _ area => decide (h.queue < 64 ∧ area < 2 ^ 64)
  | .unload h _ => decide (h.queue < 64)
  | .cancel h _ => decide (h.queue < 64)
  | .priority h cls _ _ => decide (h.queue < 64 ∧ cls < 9)
  | .pair h _ _ _ => decide (h.queue < 64)
  | .unpair h _ => decide (h.queue < 64)
  | .groupCreate h _ _ _ => decide (h.queue < 64)
  | .groupDelete h _ => decide (h.queue < 64)
  | .groupAbort h _ => decide (h.queue < 64)
  | .groupSweep h _ => decide (h.queue < 64)
  | .cap h _ => decide (h.queue < 64)
  | .hint h entries => decide (h.queue < 64 ∧ 1 ≤ entries.length ∧ entries.length ≤ 5)
  | .domain h dom _ => decide (h.queue < 64 ∧ dom < 207)
  | .sample h => decide (h.queue < 64)
  | .dump h _ _ buf len => decide (h.queue < 64 ∧ buf < 2 ^ 64 ∧ len < 2 ^ 32)
  | .eventWait h => decide (h.queue < 64)
  | .logRead h buf len _ => decide (h.queue < 64 ∧ buf < 2 ^ 64 ∧ len < 2 ^ 32)
  | .logClear h _ => decide (h.queue < 64)
  | .repair h _ => decide (h.queue < 64)
  | .halt h _ _ _ => decide (h.queue < 64)
  | .run h _ _ _ => decide (h.queue < 64)
  | .step h _ _ _ => decide (h.queue < 64)
  | .memRead h p => decide (h.queue < 64 ∧ p.addr < 2 ^ 64 ∧ p.buf < 2 ^ 64 ∧ p.len < 2 ^ 32)
  | .memWrite h p _ => decide (h.queue < 64 ∧ p.addr < 2 ^ 64 ∧ p.buf < 2 ^ 64 ∧ p.len < 2 ^ 32)
  | .ringRead h _ _ ring buf => decide (h.queue < 64 ∧ ring < 9 ∧ buf < 2 ^ 64)
  | .stateRead h _ _ inst buf => decide (h.queue < 64 ∧ inst < 2 ^ 32 ∧ buf < 2 ^ 64)
  | .breakSet h _ slot _ _ => decide (h.queue < 64 ∧ slot < 6)
  | .regRead h off => decide (h.queue < 64 ∧ off < 2 ^ 32)
  | .regWrite h off _ => decide (h.queue < 64 ∧ off < 2 ^ 32)
  | .powerOnReset => true
  | .pgAonFall => true
  | .perstAssert => true
  | .perstDeassert => true
  | .pgFall input => decide (input < 7)
  | .pgTimeout => true
  | .bootSequence _ => true
  | .bootFlashReadTimeout slot => decide (slot < 2)
  | .warmReset _ => true
  | .hotReset => true
  | .functionLevelReset => true
  | .resetKeyArm _ => true
  | .regionReset _ => true
  | .tileReset _ => true
  | .contextReset _ => true
  | .recoveryBootStart _ => true
  | .recoveryBootData _ => true
  | .recoveryBootDone _ => true
  | .recoveryTransferStall => true
  | .mfpSelect n _ _ => decide (n < 24)
  | .mfpPendingSwitch n => decide (n < 24)
  | .mfpParkEnd n => decide (n < 24)
  | .inputFilterChange n _ => decide (n < 24)
  | .extFaultClear _ => true
  | .regulatorReport _ => true
  | .pmbusTimeout unit => decide (unit < 128)
  | .smbusTimeout unit => decide (unit < 12)
  | .spiTimeout unit => decide (unit < 6)
  | .lockstepMismatch => true
  | .engineParityError _ _ eng store => decide (eng < 4 ∧ store ≤ 5)
  | .recoveryActionDone _ _ _ => true
  | .recoveryWindowTimeout _ _ => true
  | .alarmDelivery => true
  | .rasHosterrClear _ => true
  | .tapReset => true
  | .tapExtest => true
  | .dbgaccPoll => true
  | .dbgaccRegRead _ => true
  | .dbgaccRegWrite _ => true
  | .dbgaccRead8 _ => true
  | .dbgaccWrite8 _ => true
  | .dbgaccHalt _ => true
  | .dbgaccRun _ => true
  | .dbgaccStep _ => true
  | .dbgaccHold => true
  | .dbgaccRelease => true
  | .dbgaccReserved => true
  | .traceWrite region cluster => decide (region < 16 ∧ cluster < 9)
  | .traceReadCapture region => decide (region < 16)
  | .traceLostClear region _ => decide (region < 16)
  | .traceQdropClear region cluster _ => decide (region < 16 ∧ cluster < 9)
  | .pgInputRise input => decide (input < 7)
  | .quiesceTimeout _ _ => true
  | .pcieCompletionTimeout _ => true
  | .hostReadCompletion _ _ _ => true
  | .sweepRepeat _ _ => true
  | .recordAreaFlashTimeout => true

end Sys2Proof
end

