-- ==== Sys2Proof/Tests/Slice0.lean ====
section
/-! SUPPORT. Small checks of the model: ill-formed commands are refused by the well-formedness check, the manual's worked
examples come out, and every statement's hypotheses are met by a state written down here. -/

namespace Sys2Proof.Tests

open Sys2Proof.Machine

set_option maxRecDepth 20000
set_option exponentiation.threshold 4096

/-! ### Well-formed commands -/

def hdr : CmdHdr := { queue := 0, seq := 7, irq := false, expert := false, timeoutMs := 0 }
def qp : QueueParams :=
  { queue := 1, sqEntries := 2, cqEntries := 2, vector := 0, sqBase := 0, cqBase := 0, coCount := 1, coTime := 0 }
def mp : MapParams := { asid := 0, psize := 0, perm := 0, va := 0, pa := 0, len := 65536 }
def sp : StartParams := { zone := 0, guest := false, hostZone := 0, budget := none, args := [0, 0, 0, 0] }
def dm : DbgMem := { space := 0, tile := 0, ctx := false, addr := 0, buf := 0, len := 8 }
def pm : PostMsg :=
  { destDev := 0, dest := 0, destCtx := false, len := 0, srcDev := 0, src := 0, srcCtx := false, tag := 0, seq := 0,
    payload := [], poisoned := false, cut := none }
def pk : Pkt :=
  { type := 2, len := 0, hops := 0, sr := false, pmask := 0, dest := 0, src := 0, txid := 0, addr := 0, args := 0, hcrc := 0,
    checks := [], data := [], slotPoison := 0, cls := false, cut := none }
def hw : HostWinReq := { addr := 0, len := 4, write := false, data := [], poison := false }

theorem wf_commands_in_range :
    ([.nop 0, .load hdr 0 0 (.package 0 0), .queueCreate hdr qp, .map hdr mp, .copy hdr true false 0 0 1, .start hdr sp,
      .memRead hdr dm, .memWrite hdr dm (some [0]), .postMessageArrive pm none, .hint hdr [0], .hbmWrite 0 0 [0] false, .hostWindowRequest hw,
      .breakSet hdr 0 5 0 0, .mfpSelect 23 0 false, .linkDown 63] : List Instr).all Instr.wellFormed = true := by decide

/-! One ill-formed command for each check. -/

theorem wf_refuses_1 :
    ([.engineInstructionStart 0 0, .engineInstructionStart 0 4, .engineInstructionFinish 0 0, .engineInstructionFinish 0 4,
      .instructionFill 0 16384, .spCeClear 16 0 0, .spCeClear 0 9 0, .spCeClear 0 0 17, .computeDroopTrip 16,
      .computeDroopEnd 16, .stewardHeartbeat 16, .heartbeatTimeout 16, .crossingDrift 16 0 0, .crossingDrift 0 16 0,
      .crossingRecenter 16 0 0 true, .crossingRecenter 0 16 0 true, .crossingSlip 16 0 0, .crossingSlip 0 16 0, .xcalRecenterRequest 16 0,
      .xmonClear 16 0, .postMessageArrive { pm with len := 9 } none, .postMessageArrive { pm with payload := [0] } none,
      .arbiterGrant 9 0 [] [], .arbiterGrant 0 2304 [] [], .ageOldMark 9 0 0, .ageOldMark 0 2304 0, .ageOldMark 0 0 289,
      .translationWalk 0 false 32, .hbmRead (2 ^ 39), .hbmWrite (2 ^ 39) 0 [] false] : List Instr).all (fun i => !i.wellFormed) = true := by decide

theorem wf_refuses_2 :
    ([.hbmWrite 0 65 [] false, .hbmAtomic (2 ^ 39) 0 0 0, .hbmAtomic 4 0 0 0, .hbmRowClose 8 0, .hbmRowClose 0 524288,
      .hbmRefresh 8 [], .streamComplete 0 false 32, .fenceOrderingPoint 0 false 32, .xlatInvalidate 16 0,
      .xlatInvalidateDone 16, .memCeClear 8 0, .linkSignalDetect 64, .autonegDone 64 false 0, .linkTrainDone 64 0,
      .linkAlignDone 64, .helloReceive 64 0, .linkStateTimeout 64, .retrainPauseEnd 64, .flitReceive 64 (List.replicate 16 (List.replicate 34 0)),
      .flitReceive 0 [[0]], .ackTimer 64, .nakRepeat 64, .replayTimeout 64, .creditStall 64 0 false,
      .transportPacketIngress 64, .linkDown 64, .fabPortEnable 32 0, .fabPortRetrain 32 0, .fabCntClear 32 0,
      .marginStart 32 0] : List Instr).all (fun i => !i.wellFormed) = true := by decide

theorem wf_refuses_3 :
    ([.marginStop 32 0, .marginPointDone 32 0, .domainIdleExpiry 207, .domainSwitchOnDone 207, .clockCodeStep 16,
      .junctionSensorRead 2 0 0, .junctionSensorRead 0 64 0, .thermalCapStep 2, .hbmTemperatureReport 8 (some 0),
      .thermalTrip 2 0 0, .thermalTrip 0 64 0, .sqTailDoorbell 64 0, .cqHeadDoorbell 64 0, .commandFetch 64,
      .coalesceTimeout 64, .commandTimeout 64 0, .bar2Read 0 (2 ^ 64), .bar0PairLowRead 0x4000000, .bar0PairLowRead 2,
      .bar0PairHighWrite 0x4000000 0, .bar0PairHighWrite 2 0, .bar0PairLowWrite 0x4000000 0, .bar0PairLowWrite 2 0,
      .registerWrite 0x4000000 0, .identify { hdr with queue := 64 }, .negotiate { hdr with queue := 64 } 0,
      .setConfig { hdr with queue := 64 } 0 0 0, .queueCreate { hdr with queue := 64 } qp,
      .queueCreate hdr { qp with queue := 64 }, .queueCreate hdr { qp with vector := 64 }] : List Instr).all (fun i => !i.wellFormed) = true := by decide

theorem wf_refuses_4 :
    ([.queueDelete { hdr with queue := 64 } 0, .queueDelete hdr 64, .tablePool { hdr with queue := 64 } 0 0,
      .tablePool hdr (2 ^ 64) 0, .tablePool hdr 0 (2 ^ 64), .map { hdr with queue := 64 } mp,
      .map hdr { mp with va := 2 ^ 64 }, .map hdr { mp with pa := 2 ^ 64 }, .map hdr { mp with len := 2 ^ 64 },
      .unmap { hdr with queue := 64 } 0 0 0, .unmap hdr 0 (2 ^ 64) 0, .unmap hdr 0 0 (2 ^ 64),
      .translate { hdr with queue := 64 } 0 0, .translate hdr 0 (2 ^ 64), .copy { hdr with queue := 64 } true false 0 0 1,
      .copy hdr true false (2 ^ 64) 0 1, .copy hdr true false 0 (2 ^ 64) 1, .copy hdr true false 0 0 (2 ^ 64),
      .fill { hdr with queue := 64 } 0 0 0, .fill hdr (2 ^ 64) 0 0, .fill hdr 0 0 (2 ^ 64),
      .resume { hdr with queue := 64 } 0 false 0, .proof { hdr with queue := 64 } 0 0 (.package 0 0),
      .load { hdr with queue := 64 } 0 0 (.package 0 0), .start { hdr with queue := 64 } sp,
      .start hdr { sp with args := [0, 0, 0, 0, 0] }, .stop { hdr with queue := 64 } 0 false false,
      .yield { hdr with queue := 64 } 0 false, .evict { hdr with queue := 64 } 0 false 0 0, .evict hdr 0 false (2 ^ 64) 0] : List Instr).all (fun i => !i.wellFormed) = true := by decide

theorem wf_refuses_5 :
    ([.evict hdr 0 false 0 (2 ^ 64), .restore { hdr with queue := 64 } 0 0, .restore hdr 0 (2 ^ 64),
      .unload { hdr with queue := 64 } 0, .cancel { hdr with queue := 64 } 0, .priority { hdr with queue := 64 } 0 0 none,
      .priority hdr 9 0 none, .pair { hdr with queue := 64 } 0 0 none, .unpair { hdr with queue := 64 } 0,
      .groupCreate { hdr with queue := 64 } 0 0 0, .groupDelete { hdr with queue := 64 } 0,
      .groupAbort { hdr with queue := 64 } 0, .groupSweep { hdr with queue := 64 } 0, .cap { hdr with queue := 64 } 0,
      .hint { hdr with queue := 64 } [0], .hint hdr [], .hint hdr (List.replicate 6 0),
      .domain { hdr with queue := 64 } 0 false, .domain hdr 207 false, .sample { hdr with queue := 64 },
      .dump { hdr with queue := 64 } 0 0 0 0, .dump hdr 0 0 (2 ^ 64) 0, .dump hdr 0 0 0 (2 ^ 32),
      .eventWait { hdr with queue := 64 }, .logRead { hdr with queue := 64 } 0 0 0, .logRead hdr (2 ^ 64) 0 0,
      .logRead hdr 0 (2 ^ 32) 0, .logClear { hdr with queue := 64 } 0, .repair { hdr with queue := 64 } 0,
      .halt { hdr with queue := 64 } 0 0 false] : List Instr).all (fun i => !i.wellFormed) = true := by decide

theorem wf_refuses_6 :
    ([.run { hdr with queue := 64 } 0 0 false, .step { hdr with queue := 64 } 0 false 0,
      .memRead { hdr with queue := 64 } dm, .memRead hdr { dm with addr := 2 ^ 64 }, .memRead hdr { dm with buf := 2 ^ 64 },
      .memRead hdr { dm with len := 2 ^ 32 }, .memWrite { hdr with queue := 64 } dm none,
      .memWrite hdr { dm with addr := 2 ^ 64 } none, .memWrite hdr { dm with buf := 2 ^ 64 } none,
      .memWrite hdr { dm with len := 2 ^ 32 } none, .ringRead { hdr with queue := 64 } 0 false 0 0, .ringRead hdr 0 false 9 0,
      .ringRead hdr 0 false 0 (2 ^ 64), .stateRead { hdr with queue := 64 } 0 0 0 0, .stateRead hdr 0 0 (2 ^ 32) 0,
      .stateRead hdr 0 0 0 (2 ^ 64), .breakSet { hdr with queue := 64 } 0 0 0 0, .breakSet hdr 0 6 0 0,
      .regRead { hdr with queue := 64 } 0, .regRead hdr (2 ^ 32), .regWrite { hdr with queue := 64 } 0 0,
      .regWrite hdr (2 ^ 32) 0, .pgFall 7, .bootFlashReadTimeout 2, .mfpSelect 24 0 false, .mfpPendingSwitch 24,
      .mfpParkEnd 24, .inputFilterChange 24 false, .pmbusTimeout 128, .smbusTimeout 12] : List Instr).all (fun i => !i.wellFormed) = true := by decide

theorem wf_refuses_7 :
    ([.spiTimeout 6, .engineParityError 0 false 4 0, .engineParityError 0 false 0 6, .traceWrite 16 0, .traceWrite 0 9,
      .traceReadCapture 16, .traceLostClear 16 0, .traceQdropClear 16 0 0, .traceQdropClear 0 9 0, .pgInputRise 7] : List Instr).all (fun i => !i.wellFormed) = true := by decide

/-! ### The manual's worked examples -/

/-- The first line of context A's partition. -/
def line0 : IbLine := { ctx := false, line := 0, data := 0, ue := none }

/-- The state right after reset with every domain on, one tile changed; its core runs in the first line of its scratchpad. -/
def onTile (t : TileId) (f : Tile → Tile) : State :=
  { State.reset with power := { Power.reset with domOff := [] } }.modTile t fun x => f { x with ib := [line0], ibAt := some (false, 0) }

/-- Context A of tile 0 is active. -/
def ran (f : Ctx → Ctx) : State := onTile 0 fun x => { x with c0 := f { Ctx.reset with phase := .active } }

def after (r : Res) : State := match r with | .next u => u | _ => State.reset

/-- ADDI s5, s3, −16 (07, example of R172). -/
theorem test_word_addi : oz8Decode 0 0x0C0A3FFFFFFFFFF0 = some (.addi 0 5 3 (-16)) := by decide

/-- The MMUL of the example in 08. -/
theorem test_word_mmul : oz8Decode 0 0x4067450164400000 = some (.mmul 0 ⟨some 3, some 4⟩
    { ra := 10, rp := 0, rsh := 11, fmt := 2, acc := 0, zero := true, rtz := false, scale := 0, trans := false }) := by decide

theorem test_addi_runs : ((after (exec (.addi 0 5 3 (-16)) (ran fun y => y.setReg 3 5))).ctx 0 false).reg 5 = -11 := by decide

/-- LI and LIH place a 64-bit constant (07, example of R179). -/
theorem test_li_lih :
    ((after (exec (.lih 0 7 7 0x01234) (after (exec (.li 0 7 0x56789ABCDEF) (ran id))))).ctx 0 false).reg 7 =
      0x0123456789ABCDEF := by decide

/-- The circular region of the example in 03: the configuration, and each access. -/
def cr3 : CircReg :=
  ((after (exec (.twr 0 1 0x046) (ran fun y => y.setReg 1 0x8000000000880000))).ctx 0 false).cr 3

theorem test_region_example :
    (cr3.en = true ∧ cr3.bytes = 512 ∧ cr3.baseAddr = 0x80000) ∧
    let p3 := (((cr3.push 128).2.push 128).2.push 128).2
    let r4 := ((p3.pop 8).2.pop 8).2.push 128
    let r5 := r4.2.push 128
    let r6 := r5.2.adv 112
    let r7 := r6.pop 128
    let r8 := r7.2.pop 4
    let r9 := r8.2.pop 128
    (p3.head, p3.tail, p3.occ) = (384, 0, 384) ∧ (r4.1, r4.2.head, r4.2.occ) = (some 0x80180, 0, 496) ∧
      (r5.1, r5.2.overrun, r5.2.occ) = (none, true, 496) ∧ (r6.tail, r6.occ) = (128, 384) ∧
      (r7.1, r7.2.occ) = (some 0x80080, 256) ∧ (r8.1, r8.2.occ) = (some 0x80100, 252) ∧
      (r9.1, r9.2.head, r9.2.tail, r9.2.occ, r9.2.overrun) = (some 0x80180, 0, 0, 0, true) := by decide

/-- 300.0 into each short format, with its flags (04, example of R125). -/
theorem test_convert_300 :
    let x := fmtB32.decode 0x43960000
    [fmtH8.convert (.dir 0) false x, fmtH8W.convert (.dir 0) false x, fmtH8W.convert (.dir 0) true x, fmtH6.convert (.dir 0) false x,
      fmtH4.convert (.dir 0) false x, intConvert 8 (.dir 0) x, intConvert 4 (.dir 0) x] =
      [(0x7E, 5), (0x5D, 1), (0x5D, 1), (0x1F, 5), (0x7, 5), (0x7F, 16), (0x7, 16)] := by decide

/-- −2.5 and 0.1 in the short formats, toward even and toward zero (04, worked encodings). -/
theorem test_worked_encodings :
    let cvt (d code : Nat) : List Nat := [(fmtH8.convert (.dir d) false (fmtB64.decode code)).1,
      (fmtH8W.convert (.dir d) false (fmtB64.decode code)).1, (fmtH6.convert (.dir d) false (fmtB64.decode code)).1,
      (fmtH4.convert (.dir d) false (fmtB64.decode code)).1, (intConvert 8 (.dir d) (fmtB64.decode code)).1,
      (intConvert 4 (.dir d) (fmtB64.decode code)).1]
    cvt 0 0xC004000000000000 = [0xCA, 0xC1, 0x31, 0xC, 0xFE, 0xE] ∧ cvt 2 0xC004000000000000 = [0xCA, 0xC1, 0x31, 0xC, 0xFE, 0xE] ∧
    cvt 0 0x3FB999999999999A = [0x25, 0x2E, 0x02, 0x0, 0x00, 0x0] ∧ cvt 2 0x3FB999999999999A = [0x24, 0x2E, 0x01, 0x0, 0x00, 0x0] ∧
    cvt 0 0x7FF0000000000000 = [0x7F, 0x7C, 0x1F, 0x7, 0x7F, 0x7] := by decide

/-- The group of the example of R111 and R112 in H4G: 40, 12, −3, 0.1 and zeros. -/
theorem test_group_h4 :
    let r := (elemOf 0xB).encodeGroup none (fun _ => .dir 0)
      ([0x42200000, 0x41400000, 0xC0400000, 0x3DCCCCCD].map fmtB32.decode ++ List.replicate 28 (.fin false 0 0))
    (r.1, r.2.1.take 4, r.2.2) = (0x82, [6, 3, 9, 0], 3) := by decide

/-- The same under the stochastic draws of the example. -/
theorem test_group_h4_sr :
    let u (i : Nat) : Nat := [3808044, 0, 12000000, 9000000].getD i 0
    let r := (elemOf 0xB).encodeGroup none (fun i => .sr (u i))
      ([0x42200000, 0x41400000, 0xC0400000, 0x3DCCCCCD].map fmtB32.decode ++ List.replicate 28 (.fin false 0 0))
    (r.1, r.2.1.take 4, r.2.2) = (0x82, [7, 3, 9, 0], 3) := by decide

/-- The sticky bit breaks a tie in a group's sum (05, example of R137): both signs of the last product. -/
theorem test_group_sum_sticky :
    let b (c : Nat) : Sys2Proof.Machine.Num := fmtBf16.decode c
    let r (last : Nat) := groupInto (.fin false 0 0) (groupSum 0 [(b 0x3F80, b 0x3F80), (b 0x3980, b 0x3980), (b 0x2E00, b last)])
      0x7FC00000 (fun _ => 0x7F800000) (roundB32 false)
    (r 0x2E00).map (·.1) = some 0x3F800001 ∧ (r 0xAE00).map (·.1) = some 0x3F800001 := by decide

/-- 1/3 splits into its three bfloat16 pieces (05, example of R144). -/
theorem test_split_third : (split32 0x3EAAAAAB).1 = [0x3EAA, 0x3AAB, 0xB62A] := by decide

/-- The first slices of 1/12 (05, example of R147), from a binary64 close to it. -/
theorem test_slices : (slices 7 1 (fmtB64.decode 0x3FB5555555555555)).take 2 = [5, 43] := by decide

/-- The Bernoulli example of 06: the halfwords below 0x8000 give the mask byte 0x98. -/
theorem test_bernoulli_mask :
    packMask ([0xF25A, 0xCF81, 0xBDCB, 0x15E3, 0x60B6, 0xF487, 0xB2AC, 0x6DBC].map fun h => decide (h < 0x8000)) = [0x98] := by decide

/-- The header of the example's first message (12). -/
theorem test_post_header :
    msgHeader { pm with destDev := 7, dest := 0x034, destCtx := true, len := 3, srcDev := 7, src := 0x011, tag := 0x4007, seq := 41 }
      false = leBytes 4 0x38007034 ++ leBytes 4 0x7011 ++ leBytes 2 0x4007 ++ [0, 0] ++ leBytes 4 0x29 := by decide

/-- The ring of that example: two messages land, the third finds 64 bytes free, and after the release the fourth wraps. -/
theorem test_post_ring :
    let r0 : CircReg := { CircReg.reset with en := true, size := 4, base := 0xC00 }
    let r2 := (r0.land 128).2
    let r3 := (r2.land 320).2
    let r5 := r3.adv 128
    let r6 := r5.land 128
    (r2.head, r3.head, r5.tail, r6.1, r6.2.head) = (128, 448, 128, 448, 64) ∧ postFate r3 PostRing.reset 128 = some 1 ∧
      postFate r5 PostRing.reset 128 = none := by decide

/-- Local address 1 GiB on device 291 (00, example of R18). -/
theorem test_global_address :
    { State.reset with fabric := { Fabric.reset with devId := 291 } }.globalAddr 0x40000000 = 0x2460040000000 := by decide

/-- Tile 0x973 lies in package region 9, cluster 7 (01, example of R30). -/
theorem test_tile_id : regionOf 0x973 = 9 ∧ clusterOf 0x973 = 16 * 9 + 7 := by decide

/-- Breakpoint 0 of context B as the example of R477 sets it stops context B and not context A. -/
theorem test_breakpoint :
    let x := { Tile.reset with ibp := [(0, 0xA000000000020040)] }
    x.ibpMatch true 0x20040 = some 0 ∧ x.ibpMatch false 0x20040 = none := by decide

/-- The check value of the ASCII string "123456789", as 14 gives it for an implementation to be checked by. -/
theorem test_crc : crc32c (["1", "2", "3", "4", "5", "6", "7", "8", "9"].map fun s => BitVec.ofNat 8 (s.front.toNat)) = 0xE3069283 := by
  decide

/-! ### States that meet the statements' hypotheses, and what the commands make of them

For each statement with hypotheses, a theorem named after it shows a state and operands that meet them, at the edges of their
ranges, with what the command gives there where that is short to say. -/

def readyB (s : State) (t : TileId) (c : Bool) : Bool :=
  s.tileRuns t && decide ((s.tile t).active = some c) && !(s.ctx t c).halted && decide ((s.ctx t c).gate = Gate.none) &&
    decide ((s.ctx t c).pc.toNat < (s.tile t).partSize c) && ((s.tile t).ibLine c (s.ctx t c).pc.toNat).isSome &&
    decide ((s.tile t).lineUe c (s.ctx t c).pc.toNat = none) &&
    ((s.ctx t c).skipMatch || decide ((s.tile t).ibpMatch c (s.ctx t c).pc.toNat = none))

theorem ready_of {s : State} {t : TileId} {c : Bool} (h : readyB s t c = true) : Ready s t c := by
  simp only [readyB, Bool.and_eq_true, Bool.or_eq_true, Bool.not_eq_true', decide_eq_true_eq] at h
  exact ⟨h.1.1.1.1.1.1.1, h.1.1.1.1.1.1.2, h.1.1.1.1.1.2, h.1.1.1.1.2, h.1.1.1.2, h.1.1.2, h.1.2, h.2⟩

def isNext (r : Res) : Bool := match r with | .next _ => true | _ => false

/-- Context A with a circular region 1 of two lines at relative 0x1000, holding the bytes 1 to 255. -/
def withRegion (head tail : Nat) : State :=
  onTile 0 fun x => { x with
    c0 := { Ctx.reset with phase := .active, regs := [(3, 0xFFFFF), (5, 0x100000), (6, 0xFFFFFFFFFFFFFFFF), (7, 0x80)],
                           crs := [(1, { CircReg.reset with en := true, size := 2, base := 0x20, head := head, tail := tail })] },
    sp := (List.range 255).map (fun i => (0x1000 + i, BitVec.ofNat 8 (i + 1))) ++ [(0xFFFF8, 0x5A), (0xFFFFF, 0xA5)] }

theorem wit_StepPerformsTheFrontCommand : { State.reset with pending := [.nop 0, .tend 0] }.pending = [.nop 0, .tend 0] := rfl

theorem wit_IdleStepPassesOneCycle : State.reset.pending = [] ∧ (after (step State.reset)).time = 1 := by decide

theorem wit_StepsKeepMemoriesCanonical :
    let s := { ran id with memory := { Memory.reset with bytes := [(5, 1)], stks := [(0, { Stack.reset with trained := true })] },
                           pending := [.hbmWrite 0 0 [9, 0, 7] false] }
    s.memoriesWf = true ∧ isNext (step s) = true ∧ (after (step s)).memory.bytes = [(0, 9), (2, 7), (5, 1)] := by decide

theorem wit_DecodingDropsNoBit : (oz8Decode 0 0x0C0A3FFFFFFFFFF0).isSome = true := by decide

theorem wit_ScalarRegisterFile :
    Ready (withRegion 8 0) 0 false ∧ ((31 : RegNo) ≠ 0) ∧
    let d := ((withRegion 8 0).ctx 0 false).cr 1
    d.en = true ∧ (ceilDiv d.tail 8 * 8 % d.bytes + d.bytes - d.tail) % d.bytes + 8 ≤ d.occ ∧
    ((withRegion 8 0).tile 0).badWord (((withRegion 8 0).tile 0).partBase false + 0x1000) 8 = none ∧
    ((withRegion 8 0).tile 0).wpMatch false 0x1000 8 false = none ∧
    let u := after (exec (.ld 0 0 ⟨0, true, 1, 0⟩) (withRegion 8 0))
    (u.ctx 0 false).regs = ((withRegion 8 0).ctx 0 false).regs ∧ ((u.ctx 0 false).cr 1).tail = 8 ∧
    ((after (exec (.jal 0 0 (-1)) (withRegion 8 0))).ctx 0 false).pc = -8 :=
  ⟨ready_of (by decide), by decide⟩

theorem wit_RegisterOperationsWriteTheirResult : Ready (withRegion 8 0) 0 false ∧
    aluTable.all (fun e => decide (((after (exec (e.1 0 4 6 7) (withRegion 8 0))).ctx 0 false).reg 4 =
      e.2 0xFFFFFFFFFFFFFFFF 0x80)) = true := ⟨ready_of (by decide), by decide⟩

theorem wit_ImmediateOperationsWriteTheirResult : Ready (withRegion 8 0) 0 false ∧ (6 : BitVec 3) ≠ 3 ∧ (6 : BitVec 3) ≠ 7 ∧
    immTable.all (fun e => decide (((after (exec (e.1 0 4 6 (-2)) (withRegion 8 0))).ctx 0 false).reg 4 =
      e.2 0xFFFFFFFFFFFFFFFF (-2))) = true ∧
    shiftTable.all (fun e => decide (((after (exec (e.1 0 4 6 63) (withRegion 8 0))).ctx 0 false).reg 4 =
      e.2 0xFFFFFFFFFFFFFFFF 63)) = true ∧
    ((after (exec (.ext 0 4 7 4) (withRegion 8 0))).ctx 0 false).reg 4 = .ofInt 64 (extResult 4 0x80) :=
  ⟨ready_of (by decide), by decide⟩

theorem wit_LoadsByAddress : Ready (withRegion 8 0) 0 false ∧
    let x := (withRegion 8 0).tile 0
    loadTable.all (fun e => decide ((0xFFFFF : Int) < x.partSize false) && decide (x.badWord (0xFFFFF / e.2.1 * e.2.1) e.2.1 = none) &&
      decide (x.wpMatch false (0xFFFFF / e.2.1 * e.2.1) e.2.1 false = none) &&
      decide (after (exec (e.1 0 4 ⟨3, false, 0, 0⟩) (withRegion 8 0)) = (withRegion 8 0).modCtx 0 false fun y =>
        (y.setReg 4 (extendBytes e.2.1 e.2.2 (leNat (memRead x.sp (0xFFFFF / e.2.1 * e.2.1) e.2.1)))).next)) = true :=
  ⟨ready_of (by decide), by decide⟩

theorem wit_StoresByAddress : Ready (withRegion 8 0) 0 false ∧
    let x := (withRegion 8 0).tile 0
    storeTable.all (fun e => decide ((0xFFFFF : Int) < x.partSize false) && decide (x.wpMatch false (0xFFFFF / e.2 * e.2) e.2 true = none) &&
      decide (((after (exec (e.1 0 7 ⟨5, false, 0, -1⟩) (withRegion 8 0))).tile 0).sp =
        memWrite x.sp (0xFFFFF / e.2 * e.2) (leBytes e.2 0x80))) = true := ⟨ready_of (by decide), by decide⟩

/-- A pop of all that is there, a pop of one byte more, a push into all that is free, and one of one byte more. -/
theorem wit_CircularRegionAccesses : Ready (withRegion 8 0) 0 false ∧ Ready (withRegion 255 7) 0 false ∧
    let d (s : State) := (s.ctx 0 false).cr 1
    ((d (withRegion 8 0)).occ = 8 ∧ ((after (exec (.ld 0 4 ⟨0, true, 1, 0⟩) (withRegion 8 0))).ctx 0 false).reg 4 = 0x0807060504030201) ∧
    ((d (withRegion 7 0)).occ = 7 ∧ (d (after (exec (.ld 0 4 ⟨0, true, 1, 0⟩) (withRegion 7 0)))).underrun = true) ∧
    ((d (withRegion 248 0)).bytes - (d (withRegion 248 0)).occ = 8 ∧
      (d (after (exec (.sd 0 7 ⟨0, true, 1, 0⟩) (withRegion 248 0)))).full = true) ∧
    ((d (withRegion 249 0)).bytes - (d (withRegion 249 0)).occ = 7 ∧
      (d (after (exec (.sd 0 7 ⟨0, true, 1, 0⟩) (withRegion 249 0)))).overrun = true) ∧
    d (after (exec (.lb 0 4 ⟨0, true, 1, 0⟩) (withRegion 255 7))) = { d (withRegion 255 7) with tail := 8 } :=
  ⟨ready_of (by decide), ready_of (by decide), by decide⟩

theorem wit_BranchesAndJumps : Ready (withRegion 8 0) 0 false ∧
    branchTable.all (fun e => decide (((after (exec (e.1 0 6 7 (-2)) (withRegion 8 0))).ctx 0 false).pc =
      if e.2 0xFFFFFFFFFFFFFFFF 0x80 then -16 else 8)) = true ∧
    (let y := (after (exec (.jalr 0 5 5 7) (withRegion 8 0))).ctx 0 false; y.pc = 0x100000 ∧ y.reg 5 = 8) :=
  ⟨ready_of (by decide), by decide⟩

/-- What a fault leaves of context A of tile 0. -/
def faulted (s : State) (i : Instr) (code : Nat) : Bool :=
  let u := after (exec i s)
  decide ((u.ctx 0 false).phase = .faulted) && decide ((u.ctx 0 false).regs = (s.ctx 0 false).regs) &&
    decide ((u.ctx 0 false).pc = (s.ctx 0 false).pc) && decide ((u.ctx 0 false).sig = (s.ctx 0 false).sig) &&
    decide ((u.ctx 0 false).crs = (s.ctx 0 false).crs) && decide ((u.tile 0).sp = (s.tile 0).sp) && (u.tile 0).drained false &&
    (u.zone (s.ctx 0 false).zone).aborted && u.log.errs.any fun r => decide (r.code = code) && decide (r.cls = 0)

theorem wit_FaultingInstructionsStopTheContext : Ready (withRegion 8 0) 0 false ∧
    let s := withRegion 8 0
    let t := ran fun y => { y with pc := 0x100000 }
    ((s.tile 0).partSize false = 0x100000 ∧ s.log.errs.length < 7168 ∧ s.landingAt 0 false 0x046 = false) ∧
    loadTable.all (fun e => faulted s (e.1 0 4 ⟨5, false, 0, 0⟩) 0x0102 && faulted s (e.1 0 4 ⟨0, true, 0, 8⟩) 0x0101) = true ∧
    storeTable.all (fun e => faulted s (e.1 0 4 ⟨5, false, 0, 0⟩) 0x0102 && faulted s (e.1 0 4 ⟨0, false, 1, 0⟩) 0x0101) = true ∧
    (memArgOk ⟨0, true, 0, 8⟩ = false ∧ memArgOk ⟨0, false, 1, 0⟩ = false) ∧
    ((s.tile 0).partSize false < bits 0x80000000004FFF80 7 14 * 128 + bits 0x80000000004FFF80 21 15 * 128 ∧
      faulted s (.tCrnCfgWrite 0 3 0x80000000004FFF80) 0x0102 = true) ∧
    (t.tileRuns 0 = true ∧ (t.tile 0).active = some false ∧ (t.tile 0).partSize false ≤ (t.ctx 0 false).pc.toNat ∧
      faulted t (.nop 0) 0x0102 = true) ∧
    (oz8Illegal 0 0 = true ∧ faulted s (.illegalInstruction 0 0) 0x0101 = true) ∧
    (faulted s (.ext 0 4 6 3) 0x0101 = true ∧ faulted s (.ext 0 4 6 7) 0x0101 = true) := ⟨ready_of (by decide), by decide⟩

/-- An instruction of context A that an engine holds. -/
def eop (i : Instr) (regs : List Word) : EngOp := { ins := i, ctx := false, regs := regs, rm := 0, key := 0, tn6 := false, pc := 0 }

def vf : VecF := { vd := 1, va := 2, vb := 3, vc := 0, vm := 0, mv := false, ty := 2, sub := 0 }
def stip : StipF := { rd := 1, rn := 2, rt := 3, re := 4, stg := false, p := 0 }
def ws : WaitSig := ⟨some 3, some 4⟩

/-- Context A is ready; Stipple holds an instruction of it or not. -/
def busy (l : List EngOp) : State :=
  onTile 0 fun x => { x with c0 := { Ctx.reset with phase := .active, regs := [(3, 0xFFFF)], ovf := 0x8001, stpTn6 := 5 },
                             stipple := { queue := l, running := [], aborting := [] } }

theorem wit_TRegisterReads : Ready (busy []) 0 false ∧ Ready (busy [eop (.rraw32 0 ws stip) []]) 0 false ∧
    ((busy []).tile 0).stipple.has false = false ∧ ((busy [eop (.rraw32 0 ws stip) []]).tile 0).stipple.has false = true ∧
    ((busy []).tile 0).bound ≤ 32 ∧
    (let rd (s : State) (a : BitVec 12) := ((after (exec (.trd 0 9 a) s)).ctx 0 false).reg 9
     rd (busy []) 0x011 = 0x8001 ∧ rd (busy []) 0x033 = 5 ∧ rd (busy []) 0x002 = 16 * 256 + 16 ∧ rd (busy []) 0xFFF = 0 ∧
     after (exec (.trd 0 9 0x033) (busy [eop (.rraw32 0 ws stip) []])) = busy [eop (.rraw32 0 ws stip) []]) ∧
    (let b := onTile 0 fun x => { x with
       c1 := { Ctx.reset with phase := .active }, bound := 20, ib := [{ line0 with ctx := true, line := 10240 }], ibAt := some (true, 10240) }
     readyB b 0 true = true ∧ ((after (exec (.trd 0 9 0x002) b)).ctx 0 true).reg 9 = 0x14_0000_0C14) :=
  ⟨ready_of (by decide), ready_of (by decide), by decide⟩

theorem wit_TRegisterWrites : Ready (busy []) 0 false ∧ Ready (busy [eop (.rraw32 0 ws stip) []]) 0 false ∧
    WritesT (.twri 0 0x011 1) 0 ((busy []).ctx 0 false) 0x011 1 ∧ WritesT (.twr 0 3 0x020) 0 ((busy []).ctx 0 false) 0x020 0xFFFF ∧
    ((busy []).tile 0).stipple.has false = false ∧ ((busy [eop (.rraw32 0 ws stip) []]).tile 0).stipple.has false = true ∧
    (let y (a : BitVec 12) (imm : BitVec 32) := (after (exec (.twri 0 a imm) (busy []))).ctx 0 false
     (y 0x011 1).ovf = 0x8000 ∧ (y 0x020 0x1F04).fpcsr = 0x1F04 ∧ (y 0x020 0x5).fpcsr = 0 ∧ (y 0x033 9).stpTn6 = 9 ∧
     y 0x010 9 = ((busy []).ctx 0 false).next ∧ y 0x1FF 9 = ((busy []).ctx 0 false).next) :=
  ⟨ready_of (by decide), ready_of (by decide), .inr ⟨1, rfl, by decide⟩, .inl ⟨3, rfl, by decide⟩, by decide⟩

/-- A region that ends at the partition's end, of a ring and of the last plain descriptor. -/
theorem wit_CircularRegionSetup : Ready (busy []) 0 false ∧
    let v : Word := 0x80000000002FFF80
    ((v.extractLsb' 7 14).toNat * 128 + (v.extractLsb' 21 15).toNat * 128 = ((busy []).tile 0).partSize false ∧
      ((busy []).ctx 0 false).postEn = false) ∧
    ((((after (exec (.tCrnCfgWrite 0 6 3) (busy []))).ctx 0 false)).cr 6).size = 0 ∧
    (((after (exec (.tCrnCfgWrite 0 7 3) (busy []))).ctx 0 false).cr 7).en = false ∧
    (let l := { busy [] with post := { State.reset.post with landing := [⟨⟨{ pm with tag := 0x4000 }, none, [], 0, false⟩, 0, 0⟩] } }
     l.landingAt 0 false (0x040 + 2 * 10) = true ∧ l.landingAt 0 false (0x040 + 2 * 9) = false ∧
       after (exec (.tCrnCfgWrite 0 10 3) l) = l) := ⟨ready_of (by decide), by decide⟩

/-- Descriptor 2 with 100 bytes in it, enabled or not; COUNT below, at and above the occupancy. -/
def filled (en : Bool) : State :=
  ran fun y => { y with regs := [(1, 100 * 2 ^ 32 + 2), (2, 101 * 2 ^ 32 + 2), (3, 2)],
                        crs := [(2, { CircReg.reset with en := en, size := 1, head := 60, tail := 88 })] }

theorem wit_ReleaseOfReadData : Ready (filled true) 0 false ∧ Ready (filled false) 0 false ∧
    WritesT (.twr 0 1 0x060) 0 ((filled true).ctx 0 false) 0x060 (100 * 2 ^ 32 + 2) ∧
    WritesT (.twri 0 0x060 2) 0 ((filled true).ctx 0 false) 0x060 2 ∧
    (((filled true).ctx 0 false).cr 2).occ = 100 ∧
    (let d (b : Bool) (r : RegNo) := ((after (exec (.twr 0 r 0x060) (filled b))).ctx 0 false).cr 2
     (d true 1).tail = 60 ∧ (d true 1).underrun = false ∧ (d true 2).tail = 60 ∧ (d true 2).underrun = true ∧
     d true 3 = ((filled true).ctx 0 false).cr 2 ∧ (d false 1).underrun = true ∧ (d false 1).tail = 88) :=
  ⟨ready_of (by decide), ready_of (by decide), .inl ⟨1, rfl, by decide⟩, .inr ⟨2, rfl, by decide⟩, by decide⟩

/-- Context A with the count k of sig3, the gate given, and tests of BRK and the audit on. -/
def gated (k : BitVec 4) (g : Gate) (on : Bool) : State :=
  onTile 0 fun x => { x with c0 := { Ctx.reset with phase := .active, sig := [(3, k), (4, 15)], gate := g }, haltOnBrk := on, audit := on }

/-- The same, with Stylus's head waiting on sig3 too. -/
def contested (k : BitVec 4) (g : Gate) : State :=
  (gated k g false).modTile 0 fun x => { x with stylus := { queue := [eop (.viadd 0 ws vf) []], running := [], aborting := [] } }

theorem wit_NopIbinvBrkAndSig : Ready (gated 1 .none true) 0 false ∧ Ready (gated 0 .none false) 0 false ∧
    (((gated 1 .none true).tile 0).haltOnBrk = true ∧ ((gated 1 .none true).ctx 0 false).skipMatch = false ∧
      ((gated 0 .none false).tile 0).haltOnBrk = false) ∧
    ((gated 1 .none true).ctx 0 false).sigOf 3 ≠ 0 ∧ ((gated 0 .none false).ctx 0 false).sigOf 3 = 0 ∧
    ((gated 1 (.sig ws) false).tileRuns 0 = true ∧ ((gated 1 (.sig ws) false).ctx 0 false).gate = .sig ws) ∧
    (let y := (after (exec (.sig 0 ws) (gated 1 .none false))).ctx 0 false
     y.sigOf 3 = 0 ∧ y.sigOf 4 = 15 ∧ y.ovf = 16 ∧ y.pc = 8) ∧
    ((after (exec (.sig 0 ws) (gated 0 .none false))).ctx 0 false).gate = .sig ws ∧
    after (exec (.sig 0 ws) (gated 0 (.sig ws) false)) = gated 0 (.sig ws) false ∧
    ((after (exec (.sig 0 ws) (gated 1 (.sig ws) false))).ctx 0 false).gate = .none ∧
    (((contested 1 .none).tile 0).waitersAbove false 0 3 = 1 ∧ ((contested 2 .none).tile 0).waitersAbove false 0 3 = 1 ∧
      ((after (exec (.sig 0 ws) (contested 1 .none))).ctx 0 false).gate = .sig ws ∧
      after (exec (.sig 0 ws) (contested 1 (.sig ws))) = contested 1 (.sig ws) ∧
      ((after (exec (.sig 0 ws) (contested 2 (.sig ws)))).ctx 0 false).sigOf 3 = 1) ∧
    (let s := (gated 0 .none false).modTile 0 fun x => { x with ib := x.ib ++ x.ib.map fun l => { l with ctx := true }, fills := [(false, 1), (true, 5)] }
     let u := (after (exec (.ibinv 0) s)).tile 0
     u.ib.map (·.ctx) = [true] ∧ u.fills = [(true, 5)]) ∧
    (let u := after (exec (.brk 0 0xABCD) (gated 1 .none true)); (u.ctx 0 false).halted = true ∧ (u.tile 0).dbgHit = 0xABCD0005) :=
  ⟨ready_of (by decide), ready_of (by decide), by decide⟩

def sy : SyncFields := ⟨17, false, false, false⟩

theorem wit_SyncWaitsForTheEngines : Ready (busy []) 0 false ∧ Ready (busy [eop (.rraw32 0 ws stip) []]) 0 false ∧
    ((busy []).tile 0).drained false = true ∧ ((busy [eop (.rraw32 0 ws stip) []]).tile 0).drained false = false ∧
    ((gated 0 (.sync sy) false).tileRuns 0 = true ∧ ((gated 0 (.sync sy) false).ctx 0 false).gate = .sync sy ∧
      ((gated 0 (.sync sy) false).tile 0).drained false = true) ∧
    ((after (exec (.sync 0 sy) (gated 0 (.sync sy) false))).ctx 0 false).gate = .arrive sy ∧
    ((after (exec (.sync 0 sy) (busy [eop (.rraw32 0 ws stip) []]))).ctx 0 false).gate = .sync sy :=
  ⟨ready_of (by decide), ready_of (by decide), by decide⟩

theorem wit_TaskEndAndItsAudit : Ready (gated 0 .none false) 0 false ∧ Ready (gated 0 .none true) 0 false ∧
    ((gated 0 .none false).tile 0).audit = false ∧ ((gated 0 .none true).tile 0).audit = true ∧
    ((after (exec (.tend 0) (gated 0 .none false))).ctx 0 false).phase = .done ∧
    ((after (exec (.tend 0) (gated 0 .none true))).ctx 0 false).gate = .audit ∧
    (let s := ran fun y => { y with gate := .audit }
     s.tileRuns 0 = true ∧ (s.ctx 0 false).gate = .audit ∧ (s.tile 0).engBusy false = 0 ∧
     ((after (exec (.auditCheck 0) s)).ctx 0 false).phase = .done) ∧
    (let s := gated 0 .audit true
     (s.ctx 0 false).sigOf 4 ≠ 0 ∧ (s.tile 0).engBusy false = 0 ∧ faulted s (.auditCheck 0) 0x0108 = true) ∧
    (let s := onTile 0 fun x => { x with c0 := { Ctx.reset with phase := .active, gate := .audit },
                                         burin := { queue := [], running := [eop (.mread 0 ws ⟨0, 0, 0, 0, 0, false, false⟩) []], aborting := [] } }
     (s.tile 0).engBusy false ≠ 0 ∧ after (exec (.auditCheck 0) s) = s) := ⟨ready_of (by decide), ready_of (by decide), by decide⟩

/-- A stream instruction of context A that waits to be accepted. -/
def sop (i : Instr) (regs : List Word) : StreamOp :=
  { op := eop i regs, phase := .queued, slot := 0, desc := 0, param := 0, next := 0, trans := 0, pages := [], held := [], batches := [],
    flags := 0, failCode := 0, failElem := none, failGrans := [], partmap := 0, ready := [], part := 0, devs := [] }

/-- Context A with queues of the lengths given. -/
def queued (i : Instr) (sty str post : Nat) : State :=
  let y : Ctx := { Ctx.reset with phase := .active, stpCtl := 1, postQ := List.replicate post (eop i []) }
  onTile 0 fun x => { x with
    c0 := { y with stream := List.replicate str (sop i []) }, stylus := { queue := List.replicate sty (eop i []), running := [], aborting := [] } }

theorem wit_EngineInstructionsEnterTheirQueue :
    let v : Instr := .viadd 0 ws vf
    let r : Instr := .rraw128 0 ws stip
    let f : Instr := .fence 0 ws 2
    let p : Instr := .psend 0 ws ⟨1, 2, 0, 8, false⟩
    let s := queued v 15 31 15
    let u := queued v 16 32 16
    Ready s 0 false ∧ Ready u 0 false ∧
    engineOperands v = some (0, 2, []) ∧ engineOperands r = some (0, 3, [1, 2, 3, 4]) ∧ streamOperands f = some (0, []) ∧
    (instrOk v = true ∧ rraw128Tn6 (s.ctx 0 false) v = false ∧ ((s.tile 0).eng 2).queue.length = 15 ∧
      ((u.tile 0).eng 2).queue.length = 16) ∧
    (instrOk r = true ∧ rraw128Tn6 (s.ctx 0 false) r = true ∧ faulted s r 0x0101 = true) ∧
    (instrOk f = true ∧ instrOk p = true ∧ instrOk (.fence 0 ws 3) = false ∧ instrOk (.psend 0 ws ⟨1, 2, 0, 9, false⟩) = false) ∧
    ((after (exec v s)).tile 0).stylus.queue.length = 16 ∧ after (exec v u) = u ∧
    ((after (exec f s)).ctx 0 false).stream.length = 32 ∧ after (exec f u) = u ∧
    ((after (exec p s)).ctx 0 false).postQ.length = 16 ∧ after (exec p u) = u ∧ faulted s (.fence 0 ws 3) 0x0101 = true := by
  intro v r f p s u
  exact ⟨ready_of (by decide), ready_of (by decide), by decide⟩

/-- Burin holds an MMUL at its head behind what runs; context A has a count of sig3 or none; Stylus holds a store at a. -/
def starting (k : BitVec 4) (run : List EngOp) (a : Word) : State :=
  onTile 0 fun x => { x with
    c0 := { Ctx.reset with phase := .active, sig := [(3, k)] },
    burin := { queue := [eop (.mmul 0 ws ⟨1, 2, 3, 6, 2, true, false, 0, false⟩) [0, 0, 0x10000]], running := run, aborting := [] },
    stylus := { queue := [eop (.vst 0 ws 1 2 false 0) [a]], running := [], aborting := [] },
    opbuf := { n := 1, k32 := 1, fmt := 6, elems := [], plates := [] } }

theorem wit_EngineInstructionStarts :
    let stat := eop (.mstat 0 ws ⟨1, 2, 3, 6⟩) []
    let s := starting 2 [] 0xFFF80
    s.tileRuns 0 = true ∧ (s.tile 0).waitersAbove false 1 3 = 1 ∧ (s.tile 0).waitersAbove false 2 3 = 0 ∧
    (∃ o, ((s.tile 0).eng 1).queue = [o] ∧ (s.tile 0).violation false ((s.tile 0).footprint o) = none ∧ (s.tile 0).mixedI32 o = false ∧
      (s.tile 0).burinHazard o stat = true) ∧
    (∃ o, ((s.tile 0).eng 2).queue = [o] ∧ (s.tile 0).violation false ((s.tile 0).footprint o) = none ∧
      (s.tile 0).stylusHazard o (eop (.vld 0 ws ⟨1, 2, 0, 0, 0, false, 0⟩) [0, 0]) = true) ∧
    (∃ o, (((starting 1 [] 0x100000).tile 0).eng 2).queue = [o] ∧
      ((starting 1 [] 0x100000).tile 0).violation false (((starting 1 [] 0x100000).tile 0).footprint o) = some 0x100000) ∧
    ((after (exec (.engineInstructionStart 0 1) s)).tile 0).burin.running.length = 1 ∧
    ((after (exec (.engineInstructionStart 0 1) s)).ctx 0 false).sigOf 3 = 1 ∧
    after (exec (.engineInstructionStart 0 1) (starting 1 [] 0)) = starting 1 [] 0 ∧
    ((after (exec (.engineInstructionStart 0 2) (starting 1 [] 0))).tile 0).stylus.running.length = 1 ∧
    after (exec (.engineInstructionStart 0 1) (starting 2 [stat] 0)) = starting 2 [stat] 0 ∧
    (starting 1 [] 0x100000).inExchange 0 false = false ∧
    ((after (exec (.engineInstructionStart 0 2) (starting 1 [] 0x100000))).ctx 0 false).phase = .faulted :=
  ⟨by decide, by decide, by decide, ⟨_, rfl, by decide⟩, ⟨_, rfl, by decide⟩, ⟨_, rfl, by decide⟩, by decide⟩

/-- Stylus has started an integer instruction of element width 32 or 64. -/
def vector (i : Instr) : State :=
  onTile 0 fun x => { x with
    c0 := { Ctx.reset with phase := .active }, stylus := { queue := [], running := [eop i []], aborting := [] },
    vregs := [(1, 0xAAAAAAAA), (2, 0x7FFFFFFF_00000001_80000005_FFFFFFFF), (3, 0x00000001_00000002_00000021_00000003),
              (5, 0xFFFFFFFF_FFFFFFFF_FFFFFFFF_00000000)] }

theorem wit_IntegerVectorResults :
    let f : VecF := { vf with mv := true, vm := 5 }
    (laneTable.all fun p => instrOk (p.1 0 ws vf)) = true ∧
    (laneTable.all fun p =>
      let u := after (exec (.engineInstructionFinish 0 2) (vector (p.1 0 ws { f with ty := 2 })))
      let d := (u.tile 0).vreg 1
      (List.range 4).all (fun i => decide ((d.extractLsb' (32 * i) 32).toNat =
        if i = 0 then 0xAAAAAAAA else p.2 32 0 ((((vector (.nop 0)).tile 0).vreg 2).extractLsb' (32 * i) 32).toNat
          ((((vector (.nop 0)).tile 0).vreg 3).extractLsb' (32 * i) 32).toNat)) &&
      decide ((u.ctx 0 false).sigOf 4 = 1)) = true ∧
    (laneTable.all fun p =>
      let d := ((after (exec (.engineInstructionFinish 0 2) (vector (p.1 0 ws { vf with ty := 3 })))).tile 0).vreg 1
      (List.range 2).all fun i => decide ((d.extractLsb' (64 * i) 64).toNat =
        p.2 64 0 ((((vector (.nop 0)).tile 0).vreg 2).extractLsb' (64 * i) 64).toNat
          ((((vector (.nop 0)).tile 0).vreg 3).extractLsb' (64 * i) 64).toNat)) = true := by decide

/-- One engine has started an instruction of context A; the scratchpad holds the bytes 1 to 128. -/
def running (e : Nat) (o : EngOp) (n k : Nat) : State :=
  onTile 0 fun x => { x with
    c0 := { Ctx.reset with phase := .active, stpTn6 := 5 }, burin := { queue := [], running := if e = 1 then [o] else [], aborting := [] },
    stipple := { queue := [], running := if e = 3 then [o] else [], aborting := [] },
    sp := (List.range 128).map fun i => (i, BitVec.ofNat 8 (i + 1)),
    opbuf := { n := n, k32 := k, fmt := 6, elems := (List.range (32 * n * k)).map fun i => BitVec.ofNat 16 (255 - i % 256), plates := [] },
    acc := [(7, .i32 100)] }

/-- MSTAT of one column and at its largest shape; an MMUL into the last accumulator; RRAW32 of one output. -/
theorem wit_EnginesChangeTheirStores :
    let st (n k : Nat) := eop (.mstat 0 ws ⟨1, 2, 3, 6⟩) [0, 0, .ofNat 64 (n + 65536 * k)]
    let mm (base : Nat) (z : Bool) := eop (.mmul 0 ws ⟨1, 2, 3, 6, 2, z, false, 0, false⟩) [0, 0, .ofNat 64 (base + 65536)]
    let rr := { eop (.rraw32 0 ws stip) [0, 1, 0, 0] with tn6 := true }
    let s := running 1 (st 1 1) 0 0
    let m (base : Nat) (z : Bool) := running 1 (mm base z) 1 1
    (s.tileRuns 0 = true ∧ (32 : Nat) * 32 = 1024 ∧ (s.tile 0).badWord 0 (128 * ceilDiv (32 * 32 * 32) 128) = none) ∧
    (let u := after (exec (.engineInstructionFinish 0 1) s)
     (u.tile 0).opbuf.n = 1 ∧ (u.tile 0).opbuf.k32 = 1 ∧ (u.tile 0).opbuf.elems.getD 31 0 = 32 ∧ (u.tile 0).burin.running = []) ∧
    (((m 16383 true).tile 0).opbuf.fmt = 6 ∧ ((m 16383 true).tile 0).opbuf.k32 = 1 ∧ 16383 + ((m 16383 true).tile 0).opbuf.n = 16384 ∧
      (((m 16383 true).tile 0).opbuf.elems.all fun e => decide (e.toNat < 256)) = true ∧
      ((m 16383 true).tile 0).badWord 0 128 = none ∧
      ((after (exec (.engineInstructionFinish 0 1) (m 16383 true))).tile 0).accCell 16383 = .i32 (-11440)) ∧
    ((after (exec (.engineInstructionFinish 0 1) (m 7 false))).tile 0).accCell 7 = .i32 (-11340) ∧
    ((after (exec (.engineInstructionFinish 0 1) (m 7 true))).tile 0).accCell 7 = .i32 (-11440) ∧
    (let u := after (exec (.engineInstructionFinish 0 3) (running 3 rr 0 0))
     (u.ctx 0 false).stpTn6 = tn6Step 5 ∧ (u.ctx 0 false).sigOf 4 = 1 ∧
     memRead (u.tile 0).sp 0 4 = leBytes 4 ((tn6Step 5).extractLsb' 32 32).toNat ∧
     memRead (u.tile 0).sp 120 8 = List.replicate 8 0) ∧
    (let a := s.modTile 0 fun x => { x with burin := { x.burin with running := [], aborting := [st 1 1] } }
     let u := after (exec (.engineInstructionFinish 0 1) a)
     (a.tile 0).burin.aborting = [st 1 1] ∧ (u.tile 0).burin.aborting = [] ∧ u.ctx 0 false = a.ctx 0 false) := by
  decide

theorem wit_InstructionFillsScrubsAndCounters :
    let s := onTile 0 fun x => { x with
      c0 := { Ctx.reset with phase := .active }, sp := [(0xFFFF8, 0x12)], spErr := [(16, .single)], scrubLine := 1, fills := [(false, 8191)] }
    s.tileRuns 0 = true ∧ (s.tile 0).active = some false ∧ 128 * 8191 + 128 = (s.tile 0).partSize false ∧
    (s.cluster (clusterOf 0)).scrubEn = true ∧
    (let u := after (exec (.instructionFill 0 8191) s)
     (u.tile 0).fetchWord false (128 * 8191 + 8 * 15) = 0x12 ∧ (u.tile 0).lineUe false 0xFFFF8 = none ∧ (u.tile 0).fills = []) ∧
    after (exec (.instructionFill 0 8190) s) = s ∧
    (let m := s.modCtx 0 false fun y => { y with pc := 0xFF800 }
     (m.tile 0).ibLine false 0xFF800 = none ∧ ((after (exec (.nop 0) m)).tile 0).fills = [(false, 8191), (false, 8176)]) ∧
    (let r := s.modTile 0 fun x => { x with ibAt := none }
     readyB r 0 false = true ∧ 128 * 2 ≤ (r.tile 0).partSize false ∧ ((r.tile 0).ib.all fun l => decide (l.line ≠ 1)) = true ∧
       ((after (exec (.nop 0) r)).tile 0).fills = [(false, 8191), (false, 1)] ∧ ((after (exec (.nop 0) r)).tile 0).ibAt = some (false, 0)) ∧
    (let u := after (exec (.scrubStep 0) s)
     (u.tile 0).scrubLine = 2 ∧ (u.tile 0).wordErr 16 = .ok ∧ (u.tile 0).sp = (s.tile 0).sp) := by decide

/-! Barriers and exchanges. -/

/-- Tiles 0 and 1 in zone 0; A of tile 0 waits to arrive. -/
def arriving (zn : Zone) (two : Bool) (f : SyncFields) (str : List StreamOp) : State :=
  let s := onTile 0 fun x => { x with c0 := { Ctx.reset with phase := .active, gate := .arrive f, stream := str } }
  let s := { s with zones := [(0, zn)] }
  if two then s.modTile 1 fun x => { x with c0 := { Ctx.reset with phase := .active } } else s

theorem wit_SyncArrivals :
    let s := arriving Zone.reset false sy []
    (s.tileRuns 0 = true ∧ (s.tile 0).active = some false ∧ (s.ctx 0 false).gate = .arrive sy ∧ (s.zone 0).first = none ∧
      (s.zone 0).bar = .collecting ∧ s.releaseHeld 0 = false ∧ s.members 0 = [(0, false)]) ∧
    ((after (exec (.syncArrival 0) s)).zone 0).bar = .exchanging ∧ ((after (exec (.syncArrival 0) s)).ctx 0 false).pc = 8 ∧
    ((arriving Zone.reset true sy []).members 0 = [(0, false), (1, false)] ∧
      ((after (exec (.syncArrival 0) (arriving Zone.reset true sy []))).zone 0).bar = .collecting) ∧
    (let zn := { Zone.reset with first := some ⟨18, false, false, false⟩ }
     ((after (exec (.syncArrival 0) (arriving zn false sy []))).ctx 0 false).phase = .faulted ∧
     ((after (exec (.syncArrival 0) (arriving zn false sy []))).log.errs.any fun r => r.code = 0x0107) = true) ∧
    (let f : SyncFields := ⟨17, false, false, true⟩
     let q := ((queued (.fence 0 ws 2) 0 1 0).ctx 0 false).stream
     ((arriving Zone.reset false f q).ctx 0 false).stream ≠ [] ∧
       after (exec (.syncArrival 0) (arriving Zone.reset false f q)) = arriving Zone.reset false f q) := by decide

/-- Tile 0 sends the last 32 bytes of its partition on lane 0 at cycle 4 to tile 1, which receives at cycle 12. -/
def exchanging : State :=
  let s := onTile 0 fun x => { x with
    c0 := { Ctx.reset with phase := .active, gate := .barrier },
    xch := some { ctx := false, list := 0, len := 16, idx := 0, last := none, lastSend := none, lastRecv := none, buf := [], lines := 0, undo := [], finished := false },
    sp := (List.range 8).map (fun i => (i, (leBytes 8 (4 * 2 ^ 42 + 0x7FFF * 2 ^ 19 + 2 ^ 6)).getD i 0)) ++ [(15, 0x80), (0xFFFE0, 0x77)] }
  let s := s.modTile 1 fun x => { x with
    c0 := { Ctx.reset with phase := .active, gate := .barrier },
    xch := some { ctx := false, list := 0, len := 16, idx := 0, last := none, lastSend := none, lastRecv := none, buf := [], lines := 0, undo := [], finished := false },
    sp := (List.range 8).map (fun i => (i, (leBytes 8 (2 ^ 62 + 12 * 2 ^ 42 + 0x7FFF * 2 ^ 19)).getD i 0)) }
  { s with zones := [(0, { Zone.reset with bar := .exchanging, arrived := [0, 1], lanes := [0], laneMask := 1, first := some sy, started := true })] }

theorem wit_ExchangeWordsMove :
    let x (s : State) (t : TileId) := (s.tile t).xch
    let s := exchanging
    let u := after (exec (.exchangeSend 0) s)
    (∃ r, x s 0 = some r ∧ s.xWord 0 r = .send 4 0 0xFFFE0 [1] ∧ s.xTurn 0 0 (s.xWord 0 r) = true ∧
      0xFFFE0 + 32 = (s.tile 0).partSize false ∧ (s.tile 0).badWord 0xFFFE0 32 = none ∧ r.undo = []) ∧
    (u.tracks.map fun v => (v.inst, v.lane, v.cycle, v.data, v.rset)) = [(0, 0, 12, 0x77, [1])] ∧
    (∃ r, x u 1 = some r ∧ u.xWord 1 r = .recv 12 0 0xFFFE0 ∧ u.xTurn 1 0 (u.xWord 1 r) = true) ∧
    (let v := after (exec (.exchangeReceive 1) u)
     ((x v 1).map fun r => (r.idx, r.last, r.undo.map fun o => (o.1, o.2.1, o.2.2.1))) = some (1, some 12, [(12, 0xFFFE0, 0)]) ∧
       SMap.get 0 (v.tile 1).sp 0xFFFE0 = 0x77 ∧ (v.ctx 1 false).xfault = none) ∧
    ((x (after (exec (.exchangeReceive 1) { u with tracks := [] })) 1).map fun r => (r.idx, r.last)) = some (1, none) ∧
    (let v := { u with tracks := u.tracks.map fun v => { v with collide := true } }
     (((after (exec (.exchangeReceive 1) v)).ctx 1 false).xfault.map (·.code)) = some 0x0103) ∧
    (((after (exec (.exchangeReceive 1) { u with tracks := [] })).ctx 1 false).xfault.map (·.code)) = some 0x0104 :=
  ⟨⟨_, rfl, by decide⟩, by decide, ⟨_, rfl, by decide⟩, by decide⟩

/-- Every list has ended. -/
def ended : State := (exchanging.modTile 0 fun x => { x with xch := none }).modTile 1 fun x => { x with xch := none }

theorem wit_EndDecisionContinuesTheZone :
    exchanging.exchangeOver 0 = false ∧ after (exec (.endDecision 0) exchanging) = exchanging ∧
    ended.clocksRun = true ∧ ended.exchangeOver 0 = true ∧ (ended.zone 0).aborted = false ∧ (ended.zone 0).first = some sy ∧ sy.ext = false ∧ (ended.zone 0).role = 0 ∧
    (ended.zone 0).started = true ∧ (ended.zone 0).reqs = [] ∧ (ended.zone 0).arrived.Nodup ∧
    (∀ t ∈ (ended.zone 0).arrived, ∀ c, (ended.ctx t c).xfault = none ∧ (ended.ctx t c).xue = none ∧ (ended.ctx t c).stopPend = none ∧ (ended.ctx t c).haltPend = false ∧
      (ended.ctx t c).resetPend = false ∧ ((ended.ctx t c).phase = .active → (ended.tile t).active = some c)) ∧
    (let u := after (exec (.endDecision 0) ended)
     (u.zone 0).bar = .collecting ∧ (u.ctx 1 false).supersteps = 1) := by decide

theorem wit_EvictionSavesTheContext :
    let s := onTile 0 fun x => { x with c0 := { Ctx.reset with phase := .loaded, saving := true, regs := [(5, 9)] }, sp := [(0, 3), (0xFFFFF, 4)] }
    (s.ctx 0 false).saveReady = true ∧ s.rangeAsleep (s.globalAddr (s.zone 0).evictArea) (s.saveNeed 0) = [] ∧
    (ended.ctx 0 false).saveReady = false ∧
    after (exec (.evictSaveDone 0 false) ended) = ended ∧
    (let l := { s with post := { s.post with landing := [⟨⟨pm, none, [], 0, false⟩, 0, 0⟩] } }
     (l.post.landing.any fun m => m.into 0 false) = true ∧ after (exec (.evictSaveDone 0 false) l) = l) := by decide

/-! Clocks, stewards and crossings. -/

theorem wit_ClockAndStewardEvents :
    let s := { ran id with regions := [(15, { Region.reset with stewardOk := true })] }
    s.anyExchange = false ∧ exchanging.anyExchange = true ∧ s.domainOn (144 + 15) = true ∧ (s.region 15).stewardOk = true ∧
    (exchanging.region 15).stewardOk = false ∧ s.log.errs.length < 7168 ∧
    ((after (exec (.computeDroopTrip 15) s)).region 15).droop = true ∧ (after (exec .packageDroopTrip exchanging)).power.pkgDroop = true ∧
    ((after (exec (.heartbeatTimeout 15) s)).region 15).stewardOk = false ∧ (after (exec .refclkLoss s)).log.fenced = true := by decide

def crossed (x : Crossing) : State := { ran id with regions := [(15, { Region.reset with xings := [(0, x)], slipCount := 255 })] }

theorem wit_CrossingsAreRecentred :
    let a := crossed Crossing.reset
    let b := crossed { Crossing.reset with recalPend := true, wander := 17 }
    let c := crossed { Crossing.reset with busy := true, slipped := true }
    ((a.region 15).crossing 0).slipped = false ∧
    (((b.region 15).crossing 0).busy = false ∧ ((b.region 15).crossing 0).recalPend = true ∧ b.regionExchanging 0 = false ∧
      b.regionExchanging 15 = false) ∧ ((c.region 15).crossing 0).busy = true ∧ (1 : Word32).getLsbD 0 = true ∧
    (let w (v : BitVec 6) := (((after (exec (.crossingDrift 0 15 v) a)).region 15).crossing 0).recalPend
     w 16 = false ∧ w 17 = true ∧ w (-16) = false ∧ w (-17) = true) ∧
    (let l (v : BitVec 6) := ((after (exec (.crossingSlip 0 15 v) a)).region 15).crossing 0
     (l 24).slipped = false ∧ (l 25).slipped = true ∧ (l (-24)).slipped = false ∧ (l (-25)).slipped = true ∧ (l 25).valid = false) ∧
    (((after (exec (.crossingDrift 0 15 25) a)).region 15).slipCount = 255 ∧
      ((after (exec (.crossingSlip 0 15 25) a)).log.staged.map (·.code)) = [0x0305]) ∧
    after (exec (.crossingRecenter 0 15 1 true) a) = a ∧
    (((after (exec (.crossingRecenter 0 15 1 true) b)).region 15).crossing 0).busy = true ∧
    (let r (d : BitVec 4) (k : Bool) := ((after (exec (.crossingRecenter 0 15 d k) c)).region 15).crossing 0
     (r 1 true).slipped = false ∧ (r 1 true).valid = true ∧ (r 7 true).valid = true ∧ (r 0 true).valid = false ∧ (r 8 true).valid = false ∧
       (r 1 false).valid = false ∧ (r 7 true).depth = 7) ∧
    ((after (exec (.crossingRecenter 0 15 8 true) c)).log.errs.map (·.code)) = [0x0306] ∧
    (((after (exec (.xcalRecenterRequest 15 1) a)).region 15).crossing 0).recalPend = true := by decide

/-! Post messages. -/

/-- Context A holds one post send of 8 units from address a to tile d of this device. -/
def sending (k : BitVec 4) (a d : Word) : State :=
  onTile 0 fun x => { x with
    c0 := { Ctx.reset with phase := .active, sig := [(3, k)], postSeq := 41, postQ := [eop (.psend 0 ws ⟨1, 2, 0x4007, 8, false⟩) [d, a]] },
    sp := [(0xFFF00, 0x11), (0xFFFFF, 0x22)] }

theorem wit_PostSendsLeave :
    let s := sending 1 0xFFF1F 5
    (s.tileRuns 0 = true ∧ (∃ o, (s.ctx 0 false).postQ = [o] ∧ o.ins = .psend 0 ws ⟨1, 2, 0x4007, 8, false⟩ ∧ o.regs.getD 1 0 / 32 * 32 = 0xFFF00)) ∧
    (s.isOwn ((5 : Word).extractLsb' 12 15) = true ∧ 0xFFF00 + 256 = (s.tile 0).partSize false ∧
      (s.tile 0).badWord 0xFFF00 256 = none ∧ s.validTile 5 = true ∧ (s.ctx 0 false).sigOf 3 ≠ 0) ∧
    (s.tile 0).waitersAbove false 6 3 = 0 ∧ (sending 1 0xFFF20 5).inExchange 0 false = false ∧
    ((after (exec (.postSendAccept 0 false) s)).post.msgs.map fun e => (e.msg.dest, e.msg.seq, e.msg.payload.length, e.msg.tag)) =
      [(5, 41, 256, 0x4007)] ∧
    ((after (exec (.postSendAccept 0 false) s)).ctx 0 false).sigOf 4 = 1 ∧
    after (exec (.postSendAccept 0 false) (sending 0 0 5)) = sending 0 0 5 ∧
    ((after (exec (.postSendAccept 0 false) (sending 1 0xFFF20 5))).ctx 0 false).phase = .faulted :=
  ⟨⟨by decide, ⟨_, rfl, by decide⟩⟩, by decide⟩

/-- Context A of tile 5 with ring 2 and the NACK ring of 128 bytes each. -/
def ringed (en : Bool) (head tail : Nat) (p : Bool) : State :=
  let r : CircReg := { CircReg.reset with en := en, size := 1, base := 0xC00, head := head, tail := tail }
  onTile 5 fun x => { x with
    c0 := { Ctx.reset with phase := .active, crs := [(7, { r with base := 0x800 }), (10, r)], rings := [(2, { PostRing.reset with parked := p })] } }

def msg : PostMsg := { pm with dest := 5, len := 1, tag := 0x4007, seq := 42, payload := List.replicate 32 0xAB }

/-- The message stands before tile 5's post engine. -/
def reached (s : State) : State := { s with post := { s.post with msgs := [⟨msg, none, [], 0, false⟩] } }

/-- A message that takes all the ring has free, one that finds a byte too few, a parked ring, a disabled one, one that lands in two
parts and one that has not come; a NACK record. -/
theorem wit_PostMessagesLand :
    let s := reached (ringed true 64 0 false)
    let d := (s.ctx 5 false).cr 10
    let e : NackMsg := { src := 5, srcCtx := false, destWord := 0x28007034, reason := 1, tag := 0x4007, seq := 0x2B }
    let nacked (s : State) : State := { s with post := { s.post with nacks := [e] } }
    (s.validTile 5 = true ∧ s.domainOn (domainOf 5) = true ∧ s.domainOn (144 + regionOf 5) = true ∧ s.isOwn msg.srcDev = true ∧
      (s.ctx 5 false).postEn = false ∧ s.post.landing = [] ∧ d.en = true ∧ ((s.ctx 5 false).ring 2).parked = false ∧ d.head < d.bytes ∧
      d.tail < d.bytes) ∧
    ((s.post.msgs.find? fun p => decide (p.msg.dest = 5) && s.isOwn p.msg.destDev && s.postReached p).map (·.msg)) = some msg ∧
    ((ceilDiv d.head 64 * 64 % d.bytes + d.bytes - d.head) % d.bytes + 64 * ceilDiv (16 + 32) 64 = d.bytes - d.occ) ∧
    (let u := after (exec (.postMessageArrive msg none) s)
     ((u.ctx 5 false).cr 10).full = true ∧ ((u.ctx 5 false).ring 2).count = 1 ∧ u.post.nacks = [] ∧
       memRead (u.tile 5).sp (0x60000 + 64) 17 = msgHeader msg false ++ [0xAB]) ∧
    (let u := after (exec (.postMessageArrive msg none) (reached (ringed true 65 0 false)))
     u.post.nacks.map (·.reason) = [1] ∧ ((u.ctx 5 false).ring 2).drops = 1) ∧
    (after (exec (.postMessageArrive msg none) (reached (ringed true 0 0 true)))).post.nacks.map (·.reason) = [1] ∧
    (after (exec (.postMessageArrive msg none) (reached (ringed false 0 0 false)))).post.nacks.map (·.reason) = [2] ∧
    (let m := { msg with len := 2, payload := List.replicate 64 0xAB }
     let v := { ringed true 0 0 false with post := { State.reset.post with msgs := [⟨m, none, [], 0, false⟩] } }
     let u := after (exec (.postMessageArrive m (some 1)) v)
     u.post.landing.map (fun l => (l.start, l.done)) = [(0, 64)] ∧ ((u.ctx 5 false).ring 2).count = 0 ∧
       ((u.ctx 5 false).cr 10).full = true) ∧
    (let v := ringed true 0 0 false
     v.post.msgs = [] ∧ after (exec (.postMessageArrive msg none) v) = v) ∧
    (((s.ctx 5 false).cr 7).en = true ∧ ((s.ctx 5 false).ring 8).parked = false ∧ (nacked s).post.nacks = [e] ∧
      (((after (exec (.nackRecordArrive e) (nacked s))).ctx 5 false).cr 7).full = true ∧
      ((after (exec (.nackRecordArrive e) (nacked (ringed true 65 0 false)))).ctx 5 false |>.ring 8).drops = 1) := by decide

/-! Arbiters: the example of R307, and the commit. -/

def req (i : Nat) (st : BitVec 16) : ArbReq := { cls := 3, inst := 32, input := i, stamp := st, old := false }
def arbAt (g : Nat) : State :=
  { State.reset with arb := { Arb.reset with
      ageNow := 0x2010,
      insts := [(4096 * 3 + 32, { ArbInst.reset with gcount := g, reqs := [req 1 0x2000, req 7 0x2003, req 8 0x200F] })] } }

/-- A message of tile 0x311 that has come to the path down to cluster 5 of region 3, from cluster 1. -/
def coming : PlaneMsg := ⟨{ pm with dest := 0x350, src := 0x311, seq := 9 }, none, [⟨3, 32, 1⟩], 0x2000, false⟩

theorem default_maps_are_permutations (k : Nat) (h : k < 9) : Arb.reset.badShadow k = false := by
  have m (n : Nat) (hn : n ≤ 512) : (List.range n).map (mapOf Arb.reset.mapShadow k) = List.range n := by
    refine (List.map_congr_left fun i hi => ?_).trans (List.map_id _)
    simp only [mapOf, SMap.get, Arb.reset, BitVec.toNat_ofNat, id]
    exact Nat.mod_eq_of_lt (Nat.lt_of_lt_of_le (List.mem_range.mp hi) hn)
  have c : ∀ k < 9, arbInputs k ≤ 512 := by decide
  simp only [Arb.badShadow, m _ (c k h)]
  simp [SMap.get, Arb.reset]

theorem wit_ArbitersGrantAndCommit :
    let won (g : Nat) := ((after (exec (.arbiterGrant 3 32 [] []) (arbAt g))).arbInst 3 32).owners.map fun o => o.2.input
    (32 < arbInstances 3 ∧ (arbAt 7).arb.busy = false ∧ ((arbAt 7).arbInst 3 32).adopt = false ∧ ((arbAt 7).arbInst 3 32).gcount = 7) ∧
    won 6 = [8] ∧ won 7 = [1] ∧
    ((after (exec (.arbiterGrant 3 32 [] []) (arbAt 7))).arbInst 3 32).gcount = 0 ∧
    (let s := { State.reset with post := { State.reset.post with msgs := [coming] } }
     let r := { req 1 0 with item := some (msgKey coming.msg) }
     let u := after (exec (.arbiterGrant 3 32 [r, req 2 0] []) s)
     ((u.arbInst 3 32).owners.map fun o => (o.1, o.2.input, o.2.stamp)) = [(0, 1, 0x2000)] ∧ u.post.msgs.map (·.path) = [[]]) ∧
    (firstRequest 5 0 = true ∧ firstRequest 6 0 = false ∧ 0 < arbInputs 5 ∧
      (((arbAt 0).raise 5 0 { req 0 9 with cls := 5, inst := 0 }).arbInst 5 0).reqs.map (·.stamp) = [0x2010] ∧
      (((arbAt 0).raise 6 0 { req 0 9 with cls := 6, inst := 0 }).arbInst 6 0).reqs.map (·.stamp) = [9]) ∧
    (let a := { Arb.reset with nShadow := [(0, 65)] }
     a.badShadow 0 = true ∧ { a with nShadow := [(0, 64)] }.badShadow 0 = false ∧ (1 : Word32).getLsbD 0 = true ∧
     (after (exec (.arbCommit 1) { State.reset with arb := a })).arb.bad = true) ∧
    (State.reset.arb.insts.all fun e => decide (e.2.owners = [])) = true ∧
    (after (exec (.arbCommit 1) { State.reset with arb := { Arb.reset with busy := true } })).arb.refused = true := by decide

/-! Package memory. -/

def mem (l : List Host.Cell) (g : SMap GranErr) : State := { ran id with memory := { Memory.reset with bytes := l, gran := g } }

theorem wit_PackageMemoryAccesses :
    let top := State.reset.capacity - 1
    let s := mem [(0, 5), (63, 7)] []
    (s.stackReady (s.place (64 * 0)).stack = .ready ∧ s.stackReady (s.place (64 * (top / 64))).stack = .ready ∧ s.granErr 0 = .ok) ∧
    (State.reset.stackReady (State.reset.place 0).stack = .waking) ∧
    (after (exec (.hbmWrite 63 63 [9] false) s)).memory.bytes = [(0, 5), (63, 9)] ∧
    ((after (exec (.hbmWrite top 0 (List.replicate 64 1) false) (mem [] [(top / 64, .poisoned)]))).granErr (top / 64)) = .ok ∧
    ((after (exec (.hbmWrite top 1 (List.replicate 63 1) false) (mem [] [(top / 64, .uncorrectable)]))).granErr (top / 64)) = .poisoned ∧
    ((after (exec (.hbmWrite 0 63 [1] true) s)).granErr 0) = .poisoned ∧
    leNat (memRead (after (exec (.hbmAtomic 0 3 (-1) 0) s)).memory.bytes 0 8) = 2 ^ 64 - 1 ∧
    (after (exec (.hbmAtomic 0 0 1 0) (mem [(0, 5)] [(0, .poisoned)]))).memory.bytes = [(0, 5)] ∧
    ((after (exec (.hbmRead 0) (mem [] [(0, .uncorrectable)]))).granErr 0) = .poisoned ∧
    (after (exec (.hbmRead 0) State.reset)).power.domPending = [162] ∧
    (let d := mem [(0, 5)] [(0, .onDie)]
     ((after (exec (.hbmRead 0) d)).stack (d.place 0).stack).ce = 1 ∧ (after (exec (.hbmRead 0) d)).memory.bytes = [(0, 5)]) := by decide

theorem wit_MemoryControllerEvents :
    let s := { ran id with memory := { Memory.reset with stks := [(7, { Stack.reset with temp := 86, ce := 3, openRows := [1, 2] })], hostWin := true } }
    let v := mem [(1, 1)] [(0, .poisoned)]
    let empty := { State.reset with memory := { Memory.reset with intlvBusy := true, bytes := [(1, 1)] } }
    ((s.stack 7).selfRefresh = false ∧ (0x80000000 : Word32).getLsbD 31 = true ∧ s.memory.hostWin = true ∧ s.host.power = .d0 ∧
      hw.addr < 0x10000000000 ∧ v.memory.hostWin = false) ∧
    ((1 : Word32).getLsbD 30 = false ∧ (1 : Word32).extractLsb' 0 2 ≠ State.reset.memory.intlvMode ∧ State.reset.anyLoaded = false ∧
      State.reset.hostAccess = false ∧ State.reset.memory.intlvBusy = false ∧ v.anyLoaded = true ∧ empty.memory.intlvBusy = true) ∧
    ((after (exec (.hbmRowClose 7 1) s)).stack 7).openRows = [2] ∧ ((after (exec (.hbmRefresh 7 [2]) s)).stack 7).refDouble = true ∧
    ((after (exec (.hbmRefresh 7 [2]) s)).stack 7).openRows = [1] ∧
    ((after (exec (.memCeClear 7 0x80000000) s)).stack 7).ce = 0 ∧
    (after (exec (.interleaveChange 1) State.reset)).memory.intlvBusy = true ∧
    (after (exec (.interleaveChange 3) State.reset)).memory.intlvRefused = true ∧
    (after (exec (.interleaveChange 1) v)).memory.intlvRefused = true ∧ (after (exec (.interleaveChange 0) v)).memory.intlvRefused = true ∧
    after (exec (.interleaveChange 0) State.reset) = State.reset ∧
    (after (exec .interleaveFillDone empty)).memory.bytes = [] ∧
    (after (exec (.hostWindowRequest hw) s)).host.out = [.read 0 0 4] ∧ (after (exec (.hostWindowRequest hw) s)).hostAccess = true ∧
    (after (exec (.hostWindowRequest { hw with write := true, data := [7] }) s)).host.out = [.write 0 [7, 0, 0, 0] false] ∧ after (exec (.hostWindowRequest hw) v) = v := by decide

/-! Streams. -/

/-- Context A with these stream instructions and a count of sig3. -/
def streams (k : BitVec 4) (l : List StreamOp) : State :=
  onTile 0 fun x => { x with c0 := { Ctx.reset with phase := .active, sig := [(3, k)], stream := l } }

/-- A descriptor that copies one byte of package memory to the scratchpad's first byte. -/
def desc1 : Nat := 2 ^ (8 * 24)

theorem wit_StreamEngineAccepts :
    let fl := sop (.sflag 0 ws 1 2 false false) [8, 9]
    let am (r : Word) := sop (.samo 0 ws ⟨1, 2, 3, 4, false, false, 0⟩) [0, 0, 0, r]
    let ge := sop (.sget 0 ws ⟨1, 2, 3, 4, false, false, false, 0⟩) [0xFFFC0, 0, 64, 16]
    let de := sop (.sdesc 0 ws 1) [0x40]
    let taken (s : State) : Bool := ((after (exec (.streamAccept 0 false) s)).ctx 0 false).stream.all fun o => decide (o.phase = .running)
    let d := { streams 1 [de] with tiles := [(0, { (streams 1 [de]).tile 0 with sp := [(0x40 + 24, 1)] })] }
    ((streams 1 [fl]).ctx 0 false).nextQueued = some fl ∧ (streams 1 [fl]).tileRuns 0 = true ∧
    (taken (streams 1 [fl]) = true ∧ taken (streams 0 [fl]) = false ∧ taken (streams 1 [am 0xFFFF8]) = true ∧
      ((after (exec (.streamAccept 0 false) (streams 1 [am 0x100000]))).ctx 0 false).phase = .faulted) ∧
    ((∃ c, ge.copy = some c ∧ c.total ≠ 0 ∧ ((streams 1 [ge]).tile 0).copyBad false c = none) ∧ taken (streams 1 [ge]) = true) ∧
    (descBad desc1 = false ∧ (descCopy desc1 0).param = false ∧ (d.tile 0).copyBad false (descCopy desc1 0) = none ∧
      leNat (memRead (d.tile 0).sp 0x40 64) = desc1 ∧ taken d = true) :=
  ⟨by decide, by decide, by decide, ⟨⟨_, rfl, by decide⟩, by decide⟩, by decide⟩

/-- Device 1, with one page of 64 KiB that context A may write, at virtual 0x10000 and local 0x20000. -/
def paged (a : Word) (w : Bool) : State :=
  let s := streams 1 [{ sop (.sflag 0 ws 1 2 false false) [a, 0x1122334455667788] with phase := .running }]
  let e : Word := 0x100000000 * 2 ^ 9 + 0x20000 + (if w then 0xF else 7)
  { s with fabric := { s.fabric with devId := 1 }, regions := [(0, { Region.reset with xlatRootLo := 1, xlatCache := [(0, 0, 1, e)] })] }

theorem wit_TranslationWalks :
    let s := paged 0x1FFF8 true
    (∃ o, (s.ctx 0 false).streamAt 0 = some o ∧ o.phase = .running ∧ o.op.ins = .sflag 0 ws 1 2 false false ∧ o.trans = 0 ∧ o.next = 0 ∧
      o.pages = [] ∧ o.ready = [] ∧ o.batches = [] ∧ o.failElem = none ∧ heldBack ((s.ctx 0 false).earlier 0) = false) ∧
    (match (s.translate 0 0 0x1FFF8 true).2 with
     | .page p r w => decide ((p.va, p.size, p.pa, r, w) = (0x10000, 0x10000, 2 ^ 41 + 0x20000, true, true))
     | _ => false) = true ∧
    (s.fabric.devId.toNat = 1 ∧ (s.stackReady (s.place 0x2FFC0).stack) = .ready ∧ s.granErr (0x2FFF8 / 64) = .ok) ∧
    memRead (after (exec (.translationWalk 0 false 0) s)).memory.bytes 0x2FFF8 8 = leBytes 8 0x1122334455667788 ∧
    ((paged 0x1FFF8 false).translate 0 0 0x1FFF8 true).2 = .fault 4 0 1 ∧
    (((after (exec (.translationWalk 0 false 0) (paged 0x1FFF8 false))).ctx 0 false).xlatInfo.extractLsb' 33 3).toNat = 4 ∧
    ((paged 0x200000000000000 true).translate 0 0 (2 ^ 57) true).2 = .fault 1 15 0 ∧
    ((streams 1 []).translate 0 0 (2 ^ 57 - 1) true).2 = .fault 2 15 0 := ⟨⟨_, rfl, by decide⟩, by decide⟩

/-- Operations in slot 0 and slot 5 of which the elements are done, or not yet. -/
theorem wit_StreamOperationsComplete :
    let dn : StreamOp := { sop (.sflag 0 ws 1 2 false false) [8, 9] with phase := .running, next := 1, trans := 1 }
    let wt : StreamOp := { dn with next := 0 }
    let rc : StreamOp := { sop (.sdesc 0 ws 1) [0x40] with
      phase := .running, next := 1, trans := 1, desc := .ofNat 512 (desc1 + 2 ^ 53 + 0x1F0 * 2 ^ 32) }
    let fe (sc : BitVec 2) : StreamOp := { sop (.fence 0 ws sc) [] with phase := .running, slot := 5 }
    (dn.elementsDone = true ∧ wt.elementsDone = false ∧ rc.elementsDone = true ∧ dn.recordAt = none ∧ rc.recordAt = some 0x1F0 ∧ dn.isFence = false ∧
      dn.failElem = none ∧ (∃ d, rc.copy = some d ∧ d.crm = false) ∧ heldBack (((streams 1 [dn, fe 2]).ctx 0 false).earlier 0) = false) ∧
    ((after (exec (.streamComplete 0 false 0) (streams 1 [dn]))).ctx 0 false).stream = [] ∧
    (memRead ((after (exec (.streamComplete 0 false 0) (streams 1 [rc]))).tile 0).sp 0x1F0 16 = rc.recordBytes) ∧
    after (exec (.streamComplete 0 false 0) (streams 1 [wt])) = streams 1 [wt] ∧
    ((after (exec (.fenceOrderingPoint 0 false 5) (streams 1 [fe 2]))).ctx 0 false).sigOf 4 = 1 ∧
    after (exec (.fenceOrderingPoint 0 false 5) (streams 1 [dn, fe 2])) = streams 1 [dn, fe 2] ∧
    ((after (exec (.fenceOrderingPoint 0 false 5) (streams 1 [dn, fe 0]))).ctx 0 false).stream = [dn] :=
  ⟨⟨by decide, by decide, by decide, by decide, by decide, by decide, by decide, ⟨_, rfl, by decide⟩, by decide⟩, by decide⟩

theorem wit_TranslationInvalidation :
    let s := { paged 0x1FFF8 true with regions := [(15, { Region.reset with xlatCache := [(0, 0, 1, 0x10F), (1, 0, 1, 0x12F), (1, 0, 2, 0x10F)] })] }
    let left (v : Word32) := ((after (exec (.xlatInvalidate 15 v) s)).region 15).xlatCache.map fun e => (e.1, e.2.2.1)
    (s.region 15).invDone = true ∧ (1 : Word32).getLsbD 0 = true ∧ (0 : Word32).getLsbD 0 = false ∧ s.invQuiet 15 = true ∧
    left 1 = [] ∧ left (0x04000001 + 4096) = [(0, 1), (1, 1)] ∧ left 0x0C000001 = [(0, 1), (1, 2)] ∧
    (let b : Batch := { first := 0, stop := 1, addrs := [], bytes := [], wait := [], via := [(0, 0, 1, 0x10F)], stale := false }
     let o := { sop (.sflag 0 ws 1 2 false false) [8, 9] with batches := [b] }
     let v := after (exec (.xlatInvalidate 0 1) (streams 1 [o]))
     v.invQuiet 0 = false ∧ after (exec (.xlatInvalidateDone 0) v) = v ∧ (streams 1 [o]).invQuiet 0 = true) := by decide

/-! The fabric. -/

/-- Egress e with this half, on device 1 with its id set, or not. -/
def linked (e : Nat) (h : Half) (known : Bool) : State :=
  { ran id with fabric := { Fabric.reset with halves := [(e, h)], devValid := known, devId := 1 } }

def up : Half := { Half.reset with state := 6, version := 2, width := 2 }

theorem wit_FabricLinksComeUp :
    let at63 (st : BitVec 4) := linked 63 { Half.reset with state := st } true
    let at62 (st up cfg : Nat) : State :=
      let h (n : Nat) : Half := { Half.reset with state := .ofNat 4 n }
      let s := linked 62 (h st) true
      { s with fabric := { s.fabric with portCfg := [(31, .ofNat 32 cfg)], halves := [(62, h st), (63, h up)] } }
    let st62 (i : Instr) (s : State) := (((after (exec i s)).half 62).state, ((after (exec i s)).half 63).state)
    let st (i : Instr) (s : State) := ((after (exec i s)).half 63).state
    let peer (d : Nat) : BitVec 64 := .ofNat 64 (3 + d * 65536 + 2 ^ 31)
    (((at63 1).half 63).state = 1 ∧ ((at63 1).half 63).pausing = false ∧ (at62 1 0 0xE0000000).portSplit 31 = true ∧
      (at63 6).portEn 31 = true) ∧
    st62 (.linkSignalDetect 62) (at62 1 0 0xA0000000) = (2, 0) ∧ st62 (.linkSignalDetect 62) (at62 1 0 0xE0000000) = (2, 1) ∧
    st62 (.linkSignalDetect 62) (at62 1 6 0xE0000000) = (2, 6) ∧ st62 (.linkSignalDetect 62) (at62 1 6 0xA0000000) = (2, 0) ∧
    st62 (.linkSignalDetect 63) (at62 6 1 0xE0000000) = (6, 2) ∧ st62 (.linkSignalDetect 63) (at62 6 1 0xA0000000) = (6, 0) ∧
    st (.linkSignalDetect 63) (linked 63 { Half.reset with state := 1, pausing := true } true) = 1 ∧
    st (.autonegDone 63 true 3) (at63 2) = 3 ∧ ((after (exec (.autonegDone 63 true 3) (at63 2))).half 63).version = 2 ∧
    (let w (e : Nat) (l : BitVec 16) (s : State) := ((after (exec (.linkTrainDone e l) s)).half e).width
     let whole := at62 3 0 0
     w 62 0xFFFF whole = 2 ∧ w 62 0x00FF whole = 1 ∧ w 62 0xFF7F whole = 1 ∧ w 62 0xFE7F whole = 0 ∧
     w 63 0xFF00 (at63 3) = 1 ∧ w 63 0x00FF (at63 3) = 0 ∧ w 62 0x00FF (at62 3 1 0) = 1) ∧
    st (.linkAlignDone 63) (at63 4) = 5 ∧ st (.helloReceive 63 (peer 2)) (at63 5) = 6 ∧ st (.helloReceive 63 (peer 1)) (at63 5) = 8 ∧
    st (.helloReceive 63 3) (at63 5) = 7 ∧ st (.helloReceive 63 0) (at63 5) = 1 ∧
    st (.linkStateTimeout 63) (at63 2) = 1 ∧ st (.linkStateTimeout 63) (at63 5) = 1 ∧ st (.linkStateTimeout 63) (at63 6) = 6 ∧
    (let x (m : Nat) := (after (exec (.linkSignalDetect m) (at62 1 1 0xD0000000))).fabric.wire
     x 63 = [.an 63 false true 1] ∧ (at63 4).clocksRun = true ∧
       ((after (exec (.linkAlignDone 63) (at63 4))).half 63).helloSent = true) ∧
    st (.linkDown 63) (at63 6) = 1 ∧ st (.fabPortEnable 31 0x20000000) (at63 6) = 0 ∧ st (.fabPortRetrain 31 0xA0000000) (at63 6) = 1 := by
  decide

/-- A flit of empty slots with its check value; a codeword that is 17 symbols off a word of the code. -/
def flit : List Byte := List.replicate 60 0 ++ leBytes 4 0xFDC604B4 ++ List.replicate 576 0
def noise : List (List (BitVec 10)) :=
  toLanes 16 (List.replicate 527 0 ++ [1, 568, 550, 748, 724, 650, 1005, 744, 27, 204, 617, 218, 595, 461, 746, 960, 888])
/-- A POST packet for the device given, waiting at the egress stage or at ingress 63. -/
def post1 (d : BitVec 15) (hops : BitVec 6) : Pkt :=
  let p : Pkt := { pk with dest := d, len := 1, hops := hops, data := List.replicate 64 0 }
  { p with hcrc := hcrcOf p, checks := (granules 1 p.data).map crc32c }
def out1 (p : Pkt) : OutPkt := { pkt := p, ingress := none, since := 0, held := false, stamp := 0 }
def waiting (h : Half) (p : Pkt) : State :=
  let s := linked 63 h true
  { s with fabric := { s.fabric with outq := [out1 p], routes := [(2, 2 ^ 63 + 2 ^ 71 + 63 * 2 ^ 64)] } }
def came (p : Pkt) (routed : Bool) : State :=
  let s := linked 63 up true
  { s with fabric := { s.fabric with rxPkts := [{ ingress := 63, slots := 2, pkt := p }],
                                     routes := if routed then [(2, 2 ^ 63 + 2 ^ 71 + 63 * 2 ^ 64)] else [] } }

theorem flit_is_whole : flitCrcOk flit = true := by decide +kernel
theorem flit_is_read : readWord up.lanes (wordLanes up.lanes 0 1 flit) = .word false 0 flit := by decide +kernel
theorem noise_is_not_read : readWord up.lanes noise = .bad := by decide +kernel

theorem wit_FlitsAndPacketsMove :
    let s := linked 63 up true
    let fl (n : Nat) : TxFlit := { flit := { seq := 9, ack := 0, idle := false, nak := false, slots := [], credits := [], lcm := 0 }, resent := n }
    (s.egressActive 63 = true ∧ s.clocksRun = true ∧ (readFlit flit).idle = false ∧ (readFlit flit).nak = false ∧
      (readFlit flit).seq = up.rxNext ∧ slotWalk (readFlit flit).slots up.rxProg = some ([], []) ∧ up.rxSinceAck < 63 ∧ up.version ≠ 1 ∧
      up.nakWait = false) ∧
    ((after (exec (.ackTimer 63) (linked 63 { up with rxSinceAck := 1 } true))).fabric.wire.length = 2 ∧
      ((after (exec (.ackTimer 63) (linked 63 { up with rxSinceAck := 1, txWords := 5 } true))).half 63).rxSinceAck = 0) ∧
    (let u := (after (exec (.ackTimer 63) (linked 63 { up with owed := [(2, 3)], txWords := 5 } true))).half 63
     u.owed = [] ∧ u.txSeq = 1 ∧ u.unacked.map (fun f => f.flit.credits) = [[(2, 3)]]) ∧
    ((after (exec (.nakRepeat 63) (linked 63 { up with nakWait := true, txWords := 5 } true))).fabric.wire.length = 1) ∧
    (((after (exec (.replayTimeout 63) (linked 63 { up with unacked := [fl 6] } true))).half 63).unacked.map (·.resent) = [7]) ∧
    (((after (exec (.replayTimeout 63) (linked 63 { up with unacked := [fl 7] } true))).half 63).state = 1) ∧
    ((waiting up (post1 2 0)).waitsOn 63 1 false = true ∧
      ((after (exec (.creditStall 63 1 false) (waiting up (post1 2 0)))).half 63).state = 1) := by decide

theorem wit_PacketsMove :
    let n (i : Instr) (s : State) := (after (exec i s)).fabric.outq.length
    let full := { up with credits := [(2, 2)] }
    let bad : Pkt := { post1 1 0 with hcrc := 0 }
    ((post1 1 0).hcrc = hcrcOf (post1 1 0) ∧ typeOk (post1 1 0) = true ∧ (post1 1 0).checks = (granules 1 (post1 1 0).data).map crc32c ∧
      (post1 1 0).data.length = 64 ∧ (came (post1 1 0) true).hopLimit = 16 ∧ (post1 2 15).hops.toNat < 16 ∧ bad.hcrc ≠ hcrcOf bad ∧
      (came (post1 1 0) true).validTile (postOfPkt (post1 1 0)).dest = true) ∧
    (let u := after (exec (.transportPacketIngress 63) (came (post1 1 0) true))
     u.post.msgs.map (·.txid) = [some 0] ∧ u.fabric.rxPkts = [] ∧ SMap.get 0 (u.half 63).owed 2 = 2) ∧
    SMap.get 0 (after (exec (.transportPacketIngress 63) (came bad true))).fabric.counters (16 * 63 + 5) = 1 ∧
    after (exec (.transportPacketIngress 62) (came bad true)) = came bad true ∧
    ((after (exec (.transportPacketIngress 63) (came (post1 2 15) true))).fabric.outq.map fun o => o.pkt.type) = [2] ∧
    ((after (exec (.transportPacketIngress 63) (came (post1 2 15) false))).fabric.outq.map fun o => (o.pkt.type, o.pkt.args)) = [(3, 4)] ∧
    n (.transportPacketIngress 63) (came (post1 2 16) true) = 0 ∧
    ((waiting full (post1 2 0)).egressOf (post1 2 0) = some 63 ∧ (waiting full (post1 2 0)).log.fenced = false ∧
      (waiting full (post1 2 0)).dateline 63 = false ∧ (post1 2 0).len.toNat + 1 = SMap.get 0 full.credits (2 * vcOf (post1 2 0).type) ∧
      ((List.range 8).all fun j => decide (j = 2) || decide ((waiting full (post1 2 0)).readyOut 63 j = none)) = true) ∧
    n (.packetEgress 0) (waiting full (post1 2 0)) = 0 ∧
    n (.packetEgress 0) (waiting { up with credits := [(2, 1)] } (post1 2 0)) = 1 ∧
    n (.egressHoldExpiry 0) (waiting up (post1 2 0)) = 0 ∧
    (let s := waiting up (post1 2 0)
     let held := { s with fabric := { s.fabric with holds := [(2, 0)] } }
     held.isHeld (out1 (post1 2 0)) = true ∧ n (.egressHoldExpiry 0) held = 1 ∧
     n (.packetEgress 0) held = 1 ∧ (after (exec (.failoverHoldEnd 2) held)).fabric.holds = []) := by decide

/-- A store of 8 bytes to device 2 is under way; a packet's read of host memory; a control request; a post message. -/
def asking : State :=
  let b : Batch := { first := 0, stop := 1, addrs := (List.range 8).map (2 ^ 42 + ·), bytes := List.replicate 8 (1, 0), wait := [2 ^ 36], via := [], stale := false }
  let o : StreamOp := { sop (.sflag 0 ws 1 2 false false) [0, 9] with phase := .running, next := 1, trans := 1, batches := [b], devs := [2] }
  let r : MemReq := { txid := 7, dev := some 2, tile := 0, ctx := false, slot := 0, kind := 5, gran := 2 ^ 36, batch := 0, origin := none, issued := 0 }
  let s := streams 1 [o]
  { s with
    memory := { s.memory with reqs := [r, { r with txid := 8, dev := none, kind := 4, origin := some { pk with type := 4, src := 3 } }] },
    fabric := { s.fabric with ctrlReqs := [(5, 2), (6, 3)],
                              postOut := [{ txid := 1, src := 0, srcCtx := false, seq := 4, tag := 0, destWord := 0, issued := 0 }] } }

theorem wit_RequestsEndInTime :
    let s := asking
    let q (tag : BitVec 32) := s.memory.reqs.find? fun q => decide (q.txid = tag) && q.dev.isNone &&
      (decide (q.kind = 4) || decide (q.kind = 8) || decide (q.kind = 9))
    (((s.ctx 0 false).streamAt 0).map fun o => (o.copy.isNone, o.slot, o.failElem)) = some (true, 0, none) ∧
    (((after (exec (.memRequestTimeout 7) s)).ctx 0 false).streamAt 0 |>.map fun o => (o.batches.length, o.failElem, o.failCode)) = some (0, some 0, 3) ∧
    (s.memory.reqs.find? (fun r => decide (r.txid = 9) && r.dev.isSome) = none ∧ s.copyAwaits 9 Option.isSome = false) ∧
    ((q 8).map fun r => (r.kind, r.origin.map fun p => p.type)) = some (4, some 4) ∧ q 9 = none ∧
    ((after (exec (.hostReadCompletion 8 (some []) false) s)).fabric.outq.map fun o => (o.pkt.type, o.pkt.dest)) = [(8, 3)] ∧
    ((after (exec (.pcieCompletionTimeout (.read 8)) s)).fabric.outq.map fun o => o.pkt.args.extractLsb' 0 8) = [3] ∧
    (s.awaitsRead 9 = false ∧ after (exec (.hostReadCompletion 9 none true) s) = s) ∧
    (let a := { s with host := { s.host with queues := [(3, { CmdQueue.reset with state := .active })] } }
     (a.queue 3).state = .active ∧ ((after (exec (.pcieCompletionTimeout (.reply 3)) a)).queue 3).cause = 4) ∧
    (s.fabric.ctrlReqs.find? (fun r => r.1 = 5) = some (5, 2) ∧ (6, 3) ∈ (after (exec (.controlRequestTimeout 5) { s with fabric := { s.fabric with ctrlReqs := [(5, 2), (6, 3)] } })).fabric.ctrlReqs ∧
      (after (exec (.controlRequestTimeout 6) s)).fabric.unreachable = [6]) ∧
    ((after (exec (.postTimeout 0 false 4) s)).post.nacks.map fun n => n.reason) = [5] ∧
    (after (exec (.postTimeout 0 false 4) s)).chip.extTimeout = s.chip.extTimeout + 1 ∧
    after (exec (.postTimeout 0 false 5) s) = s ∧
    (after (exec (.postackReceive { src := 0, srcCtx := false, seq := 5, reason := none }) s)).fabric.late = 1 := by decide

theorem wit_FabricRegisterCommands :
    let s := linked 63 up false
    let t := linked 63 up true
    let split := { t with fabric := { t.fabric with portCfg := [(31, 0xE0000000)], halves := [(62, Half.reset), (63, up)] } }
    let host := { s with fabric := { s.fabric with rtHost := true, rtIdx := 2, rtData := [(0, 1), (2, 0xFFFFFFFF)], counters := [(16 * 62, 3)] } }
    let m (k : Bool) (n : Nat) := { t with fabric := { t.fabric with
      margins := [(31, { Margin.reset with state := 1, points := n, runKind := k, runLane := 8, saved := .trained 5 })] } }
    let x : TopoLink := { a := 1, ea := 63, b := 7, eb := 2, v1 := true }
    (s.fabric.rtHost = false ∧ host.fabric.rtHost = true ∧ s.fabric.devValid = false ∧ t.fabric.devValid = true ∧ s.fabric.devId = 1 ∧
      (s.marginAt 31).state ≠ 1 ∧ s.egressActive 63 = true ∧ s.egressActive 62 = false ∧ ((m false 1023).marginAt 31).runKind = false) ∧
    (after (exec (.routeTableWrite 0x80000001) host)).fabric.routes = [(2, 0x1BF0000000000000001)] ∧
    (after (exec (.routeTableWrite 0x00000001) host)).fabric.rtRefused = true ∧
    SMap.get 0 (after (exec (.routeTableRead 2) { host with fabric := { host.fabric with routes := [(2, 5)] } })).fabric.rtData 0 = 5 ∧
    (after (exec (.routeDiscovery [x] [] []) s)).fabric.routes = [(7, 0x1BF8000000000000000)] ∧
    (let u := after (exec (.routeDiscovery [x] [7] []) s); u.fabric.routes = [] ∧ u.log.staged.map (·.code) = [0x0506]) ∧
    after (exec (.routeDiscovery [x] [] []) host) = host ∧
    (after (exec (.deviceIdSet 0x7FFF) s)).fabric.devId = 0x7FFF ∧ (after (exec (.deviceIdSet 3) t)).fabric.devRefused = true ∧
    (let r := after (exec (.marginStart 31 0x83000000) t); (r.marginAt 31).refused = true ∧ (r.marginAt 31).lane = 3 ∧ (r.marginAt 31).state = 0) ∧
    (let r := after (exec (.marginStart 31 0x80000000) (m false 5)); (r.marginAt 31).refused = true ∧ (r.marginAt 31).runLane = 8) ∧
    (let r := after (exec (.marginStart 31 0x88000000) split); (r.marginAt 31).state = 1 ∧ (r.marginAt 31).runLane = 8) ∧
    ((after (exec (.marginStart 31 0xA8000000) split)).getEq 31 8 = .preset 0) ∧
    ((after (exec (.marginPointDone 31 70000) (m false 1022))).marginAt 31).state = 1 ∧
    ((after (exec (.marginPointDone 31 70000) (m false 1023))).marginAt 31).state = 2 ∧
    ((after (exec (.marginPointDone 31 7) (m true 63))).marginAt 31).points = 64 ∧
    (let r := after (exec (.marginStop 31 0x40000000) (m true 5)); (r.marginAt 31).state = 3 ∧ r.getEq 31 8 = .trained 5) ∧
    (after (exec (.fabCntClear 31 1) host)).fabric.counters = [] := by decide

/-! External sync groups. -/

def edge (child : BitVec 15) : XEdge := { XEdge.reset with valid := true, child := child }
/-- Zone 2 is a member of group 9: the root with the children 11 and 12, or a leaf's parent whose own parent is 5. -/
def grouped (root : Bool) (x : XGroup) : State :=
  { State.reset with
    xgroups := [(2, { x with cfg := .ofNat 32 (2 ^ 31 + (if root then 2 ^ 30 else 0) + 9), tree := if root then 2 else 0x80050001,
                             edges := [(0, edge 11), (1, edge 12)] })],
    zones := [(2, { Zone.reset with first := some ⟨4, false, false, true⟩, bar := .waitExt })] }
def syp (seq : BitVec 12) : SyncPkt :=
  { group := 9, phase := 4, seq := seq, value := 2, newcal := false, ret := false, stop := false, evict := false }

theorem wit_ExternalSyncGroups :
    let x := { XGroup.reset with phase := 4, seq := 0xFFF, localIn := true, kids := [(12, 4)] }
    let g (r : Bool) (x : XGroup) (i : Instr) := (after (exec i (grouped r x))).xgroup 2
    ((grouped true x).groupZone 9 = some 2 ∧ ((grouped true x).xgroup 2).children = [11, 12] ∧ ((grouped true x).xgroup 2).isRoot = true ∧
      ((grouped false x).xgroup 2).isRoot = false ∧ ((grouped false x).xgroup 2).parent = some 5 ∧ (0xFFF + 1 : BitVec 12) = 0) ∧
    (g true { x with kids := [] } (.xsyncArriveReceive 11 (syp 0))).state = 1 ∧
    (g true x (.xsyncArriveReceive 11 (syp 0))).state = 2 ∧ (g true x (.xsyncArriveReceive 11 (syp 0))).seq = 0 ∧
    (g false x (.xsyncArriveReceive 11 (syp 0))).arriveSent = true ∧
    (g true { x with state := 3 } (.xsyncArriveReceive 11 (syp 0))).state = 3 ∧
    (g false { x with arriveSent := true } (.xsyncReleaseReceive (syp 0))).wait = some 4 ∧
    (g true { x with wait := some 4 } (.xsyncReleaseWaitEnd 2)).wait = none ∧
    (g false x (.xsyncAbortReceive 11 { syp 0 with value := 5 })).cause = 5 ∧ (g false x (.xsyncPeerLost 2 5)).cause = 2 ∧
    (g false { x with arriveSent := true } (.xsyncArriveRepeat 2)).late = 1 ∧
    (let u := after (exec (.xsyncArriveReceive 11 (syp 0xFFF)) (grouped true { x with phase := 5, relPhase := 3, relFlags := 2 }))
     u.xgroups = (grouped true { x with phase := 5, relPhase := 3, relFlags := 2 }).xgroups ∧
       u.fabric.outq.map (fun o => o.pkt.args) = [.ofNat 64 (syncArgs 1 2 9 3 0xFFF 0)]) ∧
    (let m := g true x (.xsyncArriveReceive 11 { syp 0 with phase := 9 }); m.state = 3 ∧ m.cause = 1) ∧
    ((grouped false x).activeOf ((grouped false x).routeEntry 5) = [] ∧ (5 : BitVec 15) ∈ ((grouped false x).xgroup 2).neighbours) ∧
    (after (exec (.xsyncProbeReceive 11 (syp 0)) (grouped true x))).fabric.outq.length = 1 := by decide

theorem wit_CalibrationSweep :
    let x := XGroup.reset
    let g (r : Bool) (x : XGroup) (i : Instr) := (after (exec i (grouped r x))).xgroup 2
    let walk (n : Nat) := { x with walk := some (0, n, 64 * 300, 2), calState := 1 }
    (((grouped true x).xgroup 2).enabled = true ∧ ((grouped true x).xgroup 2).edges.find? (fun e => e.2.valid) = some (0, edge 11)) ∧
    (g true x (.xsyncSweepStart 2 0xA0000000)).walk = some (0, 0, 0, 0) ∧
    (let at0 := { x with calState := 3, breakReason := 1, root := 0, breakDev := 0, breakPeer := 0 }
     let own (x : XGroup) := { grouped true x with fabric := { Fabric.reset with devValid := true } }
     let far := { at0 with breakPeer := 11 }
     (own at0).edgeRouted at0 = true ∧ (own far).edgeRouted far = false ∧
       ((after (exec (.sweepRepeat 2 false) (own at0))).xgroup 2).calState = 1 ∧
       ((after (exec (.sweepRepeat 2 false) (own far))).xgroup 2).calState = 3 ∧ ((own at0).xgroup 2).root = (own at0).fabric.devId) ∧
    (g true { x with calState := 3, breakReason := 2 } (.sweepRepeat 2 false)).calState = 3 ∧
    ((grouped false { walk 5 with walk := some (0, 5, 0, 3) }).xgroup 2).isRoot = false ∧
    (after (exec (.xsyncEchoTimeout 2) (grouped false { walk 5 with walk := some (0, 5, 0, 3), root := 6 }))).fabric.ctrlReqs.map (·.1) = [6] ∧
    (g true (walk 62) (.xsyncEchoReceive 11 { syp 0 with phase := 62 } 300)).walk = some (0, 63, 65 * 300, 0) ∧
    (g true (walk 63) (.xsyncEchoReceive 11 { syp 0 with phase := 63 } 0)).walk = some (0, 64, 0, 0) ∧
    ((SMap.get XEdge.reset (g true (walk 63) (.xsyncEchoReceive 11 { syp 0 with phase := 63 } 0)).edges 0).pendLat = 140) ∧
    (g true (walk 5) (.xsyncEchoTimeout 2)).walk = some (0, 5, 64 * 300, 3) ∧
    (g true { walk 5 with walk := some (0, 5, 0, 3) } (.xsyncEchoTimeout 2)).breakReason = 1 ∧
    (g false x (.xsyncWalkMessage 2 (.down 100 3 true))).nextChain = 4 ∧
    (g true { walk 5 with walk := some (0, 64, 0, 0) } (.xsyncWalkMessage 2 (.up 200 5 1))).nextChain = 5 ∧
    (g true (walk 5) (.xsyncBreakReport 2 3 7 8 1 100)).breakDev = 7 := by decide

/-! Power and heat. -/

def hot (d : DieTherm) : State := { State.reset with power := { Power.reset with domOff := [], therm := [(1, d)] } }

theorem wit_PowerDomainsGovernorAndHeat :
    let s := hot DieTherm.reset
    let asleep := { s with power := { s.power with domOff := [206], domPending := [205] } }
    let top := { s with power := { s.power with samples := [2000, 2000, 2001] } }
    (s.power.domCfg.getLsbD 31 = true ∧ s.domainOn 0 = true ∧ s.mayBeOff 0 = true ∧ s.domainOn 159 = true ∧ s.mayBeOff 159 = false ∧
      asleep.power.domPending.head? = some 205) ∧
    ((after (exec (.domainIdleExpiry 0) s)).domainOn 0 = false ∧ after (exec (.domainIdleExpiry 159) s) = s ∧
      (after (exec (.domainSwitchOnDone 205) asleep)).power.domPending = []) ∧
    (s.domHeld = false ∧ s.power.domWork = [] ∧
      (let held := { s with power := { s.power with domHold := true }, host := { s.host with queues :=
         [(0, { CmdQueue.reset with state := .active, started := [⟨7, 1, 0, false⟩] })] } }
       held.domHeld = true ∧ (after (exec (.domainIdleExpiry 0) held)).power.domWork = [.idle 0] ∧
         (after (exec (.domainIdleExpiry 0) held)).domainOn 0 = true)) ∧
    (let r := after (exec (.domainRequestWrite 0x144 (2 ^ 9)) s); r.domReqOff 169 = true ∧ r.domainOn 169 = false) ∧
    (let r := after (exec (.domainRequestWrite 0x144 (2 ^ 9)) (ran id))
     r.domReqOff 169 = true ∧ r.domainOn 169 = true ∧ r.power.domRefuse.getLsbD 31 = true) ∧
    (s.anyLoadedCtx = false ∧ s.memory.intlvBusy = false ∧ (ran id).anyLoadedCtx = true ∧ s.domainOn 169 = true ∧
      ((2 : Word32) ^ 9).getLsbD (7 + 2) = true) ∧ s.govFixed = false ∧
    (top.power.samples.length + 1 = 4 ∧ top.power.excessCond = false ∧ 4 * top.power.cap.toNat = 8000 ∧
      (after (exec (.powerSample 2000) top)).power.excess = true ∧
      (after (exec (.powerSample 1999) top)).power.excess = false) ∧
    ((after (exec (.pwrCapWrite 999) s)).power.cap = 1000 ∧ (after (exec (.pwrCapWrite 4095) s)).power.cap = 2200) ∧
    (SMap.get none (s.dieTherm 1).sensors 63 = none ∧
      SMap.get none ((after (exec (.junctionSensorRead 1 63 (-40)) s)).dieTherm 1).sensors 63 = some (-40) ∧
      ((after (exec (.junctionSensorRead 1 63 151) s)).dieTherm 1).excluded = [63]) ∧
    (let h := hot { DieTherm.reset with sensors := [(0, some 95)] }
     let c := hot { DieTherm.reset with cap := 41, sensors := [(0, some 92)] }
     h.dieHot 1 = true ∧ c.dieHot 1 = false ∧ (∀ r ∈ (c.dieTherm 1).readings, r.2 ≤ c.throttleC - 3) ∧
     ((after (exec (.thermalCapStep 1) h)).dieTherm 1).cap = 41 ∧ ((after (exec (.thermalCapStep 1) c)).dieTherm 1).cap = 42) ∧
    (s.power.thermTrip.getLsbD 31 = false ∧ (after (exec (.thermalTrip 1 63 105) s)).power.thermTrip = 0xFF000069) ∧
    ((after (exec (.hbmTemperatureReport 7 (some 95)) s)).power.hbmThr = true ∧ (after (exec (.hbmTemperatureReport 7 (some 126)) s)).chip.extRange = 1 ∧
      (after (exec (.hbmTemperatureReport 7 none) s)).log.fenced = true) := by
  decide


/-! The host port and its commands. -/

/-- A command's packet: its opcode, SEQ 7 and parameters. -/
def packet (op : Nat) (l : List (Nat × Nat × Nat)) : BitVec 512 :=
  .ofNat 512 (l.foldl (fun n f => n + f.2.2 * 2 ^ (8 * (16 + f.1))) (op + 2 ^ 16 + 7 * 2 ^ 32))

/-- Queue 0 at work in D0, with this command started and not taken. -/
def given (op : Nat) (l : List (Nat × Nat × Nat)) (s : State) : State :=
  { s with host := { s.host with
      power := .d0, ready := true,
      queues := [(0, { CmdQueue.reset with state := .active, sqSize := 4, cqSize := 4,
                                           started := [⟨7, .ofNat 16 op, packet op l, false⟩] })] } }

def givenB (s : State) (h : CmdHdr) (op : BitVec 16) (l : List (Nat × Nat × Nat)) : Bool :=
  s.hasCmd h op l && !s.log.fenced && decide ((s.queue h.queue).state = .active) && decide (h.queue < 64) &&
    decide ((s.queue h.queue).sqHead < 4096) && decide (s.host.power = .d0)

theorem given_of {s : State} {h : CmdHdr} {op : BitVec 16} {l : List (Nat × Nat × Nat)} (g : givenB s h op l = true) :
    Given s h op l := by
  simp only [givenB, Bool.and_eq_true, Bool.not_eq_true', decide_eq_true_eq] at g
  exact ⟨g.1.1.1.1.1, g.1.1.1.1.2, g.1.1.1.2, g.1.1.2, g.1.2, g.2⟩

/-- The replies among the outputs: opcode, status, DETAIL and the result's low 64 bits. -/
def replies (s : State) : List (Nat × Nat × Nat × Nat) :=
  s.host.out.filterMap fun o => match o with
    | .reply _ _ e => some ((e.extractLsb' 80 16).toNat, (e.extractLsb' 32 16).toNat, (e.extractLsb' 96 32).toNat, (e.extractLsb' 128 64).toNat)
    | _ => none

/-- A queue of 4 with two replies not yet taken and the commands 0 to 2 to fetch. -/
def served (q : CmdQueue) : State :=
  { State.reset with host := { HostIf.reset with
      power := .d0, ready := true, major := 1, negotiated := true, msix := [(0, 0)],
      queues := [(1, { q with state := .active, sqSize := 4, cqSize := 4, cqUsed := 2, sqTail := 3, sqHead := 3 - 1 })] } }

theorem wit_CommandQueuesAreServed :
    let s := served CmdQueue.reset
    let busy := served { CmdQueue.reset with started := [⟨7, 0x0601, 0, true⟩] }
    let p : BitVec 512 := .ofNat 512 (0x0001 + 2 ^ 16 + 9 * 2 ^ 32)
    let late := { s with host := { s.host with waits := [{ hdr := { hdr with queue := 1 }, opcode := 0x0601, kind := .event, deadline := some 5 }] } }
    ((s.queue 1).state = .active ∧ s.canFetch 1 = true ∧ s.turnAt 1 = true ∧ s.idleMgmt = true ∧ s.busHeld = false ∧
      s.packetError 1 p = none ∧ s.packetError 1 (p + 4) = some (4, 0) ∧ (p + 2 ^ 24).getLsbD 24 = true ∧ (busy.queue 1).started ≠ []) ∧
    ((after (exec (.sqTailDoorbell 1 3) s)).queue 1).sqTail = 3 ∧ ((after (exec (.sqTailDoorbell 1 4) s)).queue 1).cause = 1 ∧
    ((after (exec (.cqHeadDoorbell 1 2) s)).queue 1).cqUsed = 0 ∧ ((after (exec (.cqHeadDoorbell 1 3) s)).queue 1).cause = 2 ∧
    ((after (exec (.cqHeadDoorbell 1 4) s)).queue 1).cause = 2 ∧
    (after (exec (.coalesceTimeout 1) (served { CmdQueue.reset with coTime := 1, sinceSignal := 1 }))).host.out = [.msix 0] ∧
    (late.host.waits.find? (fun w => decide (w.hdr.queue = 1) && decide (w.hdr.seq = 7) && w.deadline.isSome)).isSome = true ∧
    replies (after (exec (.commandTimeout 1 7) late)) = [(0x601, 5, 0, 0)] ∧
    ((after (exec (.adminQueueEnable 0x80000000) { s with host := { s.host with adminSize := 0x00021000 } })).queue 0).state = .active ∧
    ((after (exec (.adminQueueEnable 0x80000000) { s with host := { s.host with adminSize := 0x00011000 } })).queue 0).state = .error := by
  decide

theorem wit_CommandFetches :
    let s := served CmdQueue.reset
    let busy := served { CmdQueue.reset with started := [⟨7, 0x0601, 0, true⟩] }
    let p : BitVec 512 := .ofNat 512 (0x0001 + 2 ^ 16 + 9 * 2 ^ 32)
    (let u := after (exec (.commandFetch 1) s)
     s.fetching = false ∧ u.host.out = [.read 0 128 64] ∧ u.memory.reqs.map (fun m => (m.txid, m.kind, m.gran, m.dev)) = [(0, 9, 1, none)] ∧
       u.queue 1 = s.queue 1 ∧ u.host.turn = 2 ∧ u.fetching = true ∧ after (exec (.commandFetch 1) u) = u) ∧
    after (exec (.commandFetch 0) s) = s ∧
    (let r : MemReq := { txid := 0, dev := none, tile := 0, ctx := false, slot := 0, kind := 9, gran := 1, batch := 0, origin := none, issued := 0 }
     let asked (s : State) := { s with memory := { s.memory with reqs := [r] } }
     let got (s : State) (p : BitVec 512) := after (exec (.hostReadCompletion 0 (some (leBytes 64 p.toNat)) false) (asked s))
     ((after (exec (.pcieCompletionTimeout (.read 0)) (asked s))).queue 1).cause = 3 ∧
       ((after (exec (.hostReadCompletion 0 (some []) true) (asked s))).queue 1).cause = 3 ∧
       ((got s p).queue 1).started = [⟨9, 1, p, false⟩] ∧ ((got s p).queue 1).sqHead = 3 ∧
       (got busy (p + 2 ^ 24)).queue 1 = busy.queue 1 ∧ replies (got s (p + 4)) = [(5, 4, 0, 0)]) := by decide

theorem wit_BarAccesses :
    let s := { served CmdQueue.reset with
      chip := { Chip.reset with powered := true, perst := false }, power := { Power.reset with domOff := [] },
      memory := { Memory.reset with bytes := [(0x3FFFFFFF, 7), (0x40000000, 9)] } }
    let s := { s with host := { s.host with bar2Base := 0x40000000 } }
    let top := { s with host := { s.host with bar2Base := 0x5FC0000000 } }
    let staged := { s with host := { s.host with pairStage := [(0x100030, 1)] } }
    ((∀ m, m < 8 → s.domainOn (162 + m) = true) ∧ s.host.ready = true ∧ s.portUp = true ∧ s.granErr 0x1000000 = .ok ∧
      0x5FC0000000 + 0x40000000 = s.capacity ∧ s.inBar2 (2 ^ 36 - 1) 1 = true ∧ s.inBar2 (2 ^ 36) 1 = false ∧
      after (exec (.bar2Read (2 ^ 36) 1) s) = s ∧ isPairLow 0x100030 = true ∧ s.host.adminEn = false ∧ s.host.copies = []) ∧
    (after (exec (.bar2Read 0 1) s)).host.out = [.completion [9] false] ∧
    (after (exec (.bar2Read 0x40000000 1) top)).host.out = [.unsupported] ∧
    (after (exec (.bar2Write 0 [5] false) s)).memory.bytes = [(0x3FFFFFFF, 7), (0x40000000, 5)] ∧
    (after (exec (.bar2Write 0x40000000 [5] false) top)).memory = s.memory ∧
    (let off (w : Nat) : State := { s with host := { s.host with bar2Base := 0 }, power := { s.power with domOff := [162], domReq := if w = 0 then [] else [(5, .ofNat 32 w)] } }
     (off 4).rangeAsleep (s.globalAddr 0) 1 = [0] ∧ (off 4).domReqOff 162 = true ∧ (off 0).domReqOff 162 = false ∧
       (after (exec (.bar2Read 0 1) (off 4))).host.out = [.unsupported] ∧ (after (exec (.bar2Write 0 [5] false) (off 4))).log.hostErr = 1 ∧
       (after (exec (.bar2Read 0 1) (off 0))).power.domPending = [162] ∧ (after (exec (.bar2Write 0 [5] false) (off 0))).power.domPending = [162]) ∧
    (after (exec .bar0BadAccess s)).log.hostErr = 0x10000 ∧
    (after (exec (.bar0PairHighWrite 0x100034 1) s)).host.pairStage = [(0x100030, 1)] ∧
    (after (exec (.bar0PairLowWrite 0x100030 0xFFFFFFFF) staged)).host.bar2Base = 0x1C0000000 ∧
    (after (exec (.bar0PairLowRead 0x100030) s)).host.out = [.completion [0, 0, 0, 64] false] ∧
    after (exec (.registerWrite 0x300 1) s) = s ∧ (after (exec (.registerWrite 0x100020 0xFFFFFFFF) s)).host.adminSize = 0x1FFF1FFF ∧
    (after (exec (.registerWrite 2 1) s)).log.hostErr = 0x10000 ∧
    (after (exec (.hostPowerState .d3hot) s)).host.power = .d3hot ∧ (after (exec (.hostPowerState .l2) s)).domainOn 206 = false := by decide

theorem wit_ManagementCommandsReply :
    let s := { State.reset with power := { Power.reset with domOff := [] } }
    let loaded := { ran id with power := s.power }
    let e : Word := 0x17FF
    (Given (given 1 [] s) hdr 1 [] ∧ Given (given 0x0002 [(0, 1, 255)] s) hdr 0x0002 [(0, 1, (255 : BitVec 8).toNat)] ∧
      Given (given 0x0003 [(0, 2, 0xFFFF), (2, 2, 9), (4, 4, 1)] s) hdr 0x0003 [(0, 2, 0xFFFF), (2, 2, 9), (4, 4, 1)] ∧
      Given (given 0x0004 [(0, 1, 1), (2, 2, 2), (4, 2, 2), (24, 1, 1)] s) hdr 0x0004
        [(0, 1, 1), (2, 2, 2), (4, 2, 2), (6, 2, 0), (8, 8, 0), (16, 8, 0), (24, 1, 1), (26, 2, 0)] ∧
      Given (given 0x0401 [(0, 2, 65535)] s) hdr 0x0401 [(0, 2, 65535)] ∧
      Given (given 0x0402 [(0, 1, 1), (8, 8, e.toNat)] s) hdr 0x0402 [(0, 1, 1), (8, 8, e.toNat)] ∧
      Given (given 0x0403 [(0, 1, 169), (1, 1, 1)] s) hdr 0x0403 [(0, 1, 162 + 7), (1, 1, 1)]) ∧
    (Given (given 0x0501 [] s) hdr 0x0501 [] ∧ Given (given 0x0502 [(16, 4, 128)] s) hdr 0x0502 [(0, 1, 0), (1, 1, 0), (8, 8, 0), (16, 4, 128)] ∧
      Given (given 0x0601 [] s) hdr 0x0601 [] ∧ Given (given 0x0602 [(16, 4, 64)] s) hdr 0x0602 [(8, 8, 0), (16, 4, 64), (20, 4, 0)] ∧
      Given (given 0x0603 [(0, 4, 5)] s) hdr 0x0603 [(0, 4, 5)] ∧ Given (given 0x0604 [(0, 2, 3983)] s) hdr 0x0604 [(0, 2, 3983)] ∧
      Given (given 0x0801 [(0, 4, 0x200000)] s) hdr 0x0801 [(0, 4, 0x200000)] ∧
      Given (given 0x0802 [(0, 4, 0x200000), (4, 4, 0xFFFFFFFF)] s) hdr 0x0802 [(0, 4, 0x200000), (4, 4, 0xFFFFFFFF)]) ∧
    (s.fabric.devValid = false ∧ s.anyLoaded = false ∧ e.getLsbD 11 = false ∧ e.extractLsb' 12 3 = 1 ∧ s.domainOn 169 = true ∧
      s.anyLoadedCtx = false ∧ loaded.anyLoadedCtx = true ∧ s.memory.intlvBusy = false ∧ s.validTile 3983 = true ∧
      (s.cluster 248).pend = none ∧ (s.cluster 248).active = none ∧ (s.cluster 248).spareFailed = false) := by
  exact ⟨⟨given_of (by decide), given_of (by decide), given_of (by decide), given_of (by decide), given_of (by decide),
    given_of (by decide), given_of (by decide)⟩, ⟨given_of (by decide), given_of (by decide), given_of (by decide),
    given_of (by decide), given_of (by decide), given_of (by decide), given_of (by decide), given_of (by decide)⟩, by decide⟩

/-- QUEUE_DELETE of queue 1, which is active with nothing started. -/
def twoQueues : State :=
  let s := given 0x0005 [(0, 1, 1)] State.reset
  { s with host := { s.host with queues := s.host.queues ++ [(1, { CmdQueue.reset with state := .active, sqSize := 2, cqSize := 2 })] } }

theorem wit_queue_delete : Given twoQueues hdr 0x0005 [(0, 1, 1)] ∧ (twoQueues.queue 1).state = .active ∧ (twoQueues.queue 1).started = [] ∧
    (twoQueues.queue 0).state ≠ .deleting ∧ twoQueues.host.waits = [] ∧
    ((after (exec (.queueDelete hdr 1) twoQueues)).queue 1).state = .none := ⟨given_of (by decide), by decide⟩

theorem test_management_commands :
    let s := { State.reset with power := { Power.reset with domOff := [] } }
    let run (op : Nat) (l : List (Nat × Nat × Nat)) (i : Instr) (s : State) := after (exec i (given op l s))
    replies (run 0x0401 [(0, 2, 65535)] (.cap hdr 65535) s) = [(0x401, 0, 0, 2200)] ∧
    ((run 0x0402 [(0, 1, 1), (8, 8, 0x17FF)] (.hint hdr [0x17FF]) s).phaseRec 0x7FF).cls = 1 ∧
    (run 0x0403 [(0, 1, 169), (1, 1, 1)] (.domain hdr 169 true) s).domainOn 169 = false ∧
    replies (run 0x0403 [(0, 1, 169), (1, 1, 1)] (.domain hdr 169 true) { ran id with power := s.power }) = [(0x403, 0xC, 169, 0)] ∧
    replies (run 0x0601 [] (.eventWait hdr) { s with log := { s.log with events := [5, 6] } }) = [(0x601, 0, 0, 5)] ∧
    (run 0x0601 [] (.eventWait hdr) s).host.waits.length = 1 ∧
    (run 0x0802 [(0, 4, 0x200000), (4, 4, 0xFFFFFFFF)] (.regWrite hdr 0x200000 0xFFFFFFFF) s).power.cap = 2200 ∧
    ((run 0x0604 [(0, 2, 3983)] (.repair hdr 3983) s).cluster 248).active = some 15 := by decide

/-- Page tables at 0: the root table's entry of ASID 4095, then one table per level for this address. -/
def tables (va : Nat) (leaf : List Nat) : State :=
  let put (m : List Host.Cell) (e : Nat × Nat) : List Host.Cell := memWrite m e.1 (leBytes 8 e.2)
  let l := [(8 * 4095, 0x8001), (0x8000 + 8 * levelIndex 4 va, 0xC001), (0xC000 + 8 * levelIndex 3 va, 0x10001)] ++
    (if leaf = [] then [] else [(0x10000 + 8 * levelIndex 2 va, 0x14001), (0x14000 + 8 * levelIndex 1 va, 0x18001),
      (0x18000 + 8 * levelIndex 0 va, 7)])
  { State.reset with
    memory := { Memory.reset with bytes := l.foldl put [] }, power := { Power.reset with domOff := [] },
    host := { HostIf.reset with poolBase := 0, poolLen := 65536, poolUsed := 65536 } }

theorem wit_MemoryCommandsReply :
    let s := { State.reset with power := { Power.reset with domOff := [] } }
    let va := 2 ^ 57 - 2 ^ 30
    let pa := 2 ^ 56 - 2 ^ 30
    let t := tables va []
    let p : MapParams := { asid := 4095, psize := 2, perm := 7, va := va, pa := pa, len := 2 ^ 30 }
    let l := tables (2 ^ 57 - 65536) [0]
    let r := { streams 1 [{ sop (.sflag 0 ws 1 2 false false) [0, 9] with phase := .suspended ⟨3, 0, 0, 0, false, 0⟩, slot := 31 }] with power := s.power }
    (s.memory.intlvBusy = false ∧ (∀ m, m < 8 → s.domainOn (162 + m) = true) ∧ s.anyLoaded = false ∧ s.capacity = 3 * 2 ^ 37 ∧
      (s.region 0).rootEn = false) ∧
    Given (given 0x0101 [(8, 8, 3 * 2 ^ 37 - 32768), (16, 8, 32768)] s) hdr 0x0101 [(8, 8, 3 * 2 ^ 37 - 32768), (16, 8, 32768)] ∧
    Given (given 0x0102 [(0, 2, 4095), (2, 1, 2), (3, 1, 7), (8, 8, va), (16, 8, pa), (24, 8, 2 ^ 30)] t) hdr 0x0102
      [(0, 2, p.asid.toNat), (2, 1, p.psize.toNat), (3, 1, p.perm.toNat), (8, 8, p.va), (16, 8, p.pa), (24, 8, p.len)] ∧
    ((t.getEntry (8 * 4095)) = 0x8001 ∧ (t.getEntry (0x8000 + 8 * levelIndex 4 va)) = 0xC001 ∧
      (t.getEntry (0xC000 + 8 * levelIndex 3 va)) = 0x10001 ∧ pteLeaf 0xC001 = false ∧ pteLeaf 0x10001 = false ∧
      (t.getEntry (0x10000 + 8 * levelIndex 2 va)) = 0 ∧
      ((tables va [0]).getEntry (0x10000 + 8 * levelIndex 2 va)).getLsbD 0 = true) ∧
    Given (given 0x0103 [(0, 2, 4095), (8, 8, 2 ^ 57 - 65536), (24, 8, 65536)] l) hdr 0x0103
      [(0, 2, 4095), (8, 8, 2 ^ 57 - 65536), (24, 8, 65536)] ∧
    l.leafOf 4095 (2 ^ 57 - 65536) = some (0, 0x18000 + 8 * levelIndex 0 (2 ^ 57 - 65536)) ∧
    Given (given 0x0104 [(8, 8, 2 ^ 57)] s) hdr 0x0104 [(0, 2, 0), (8, 8, 2 ^ 57)] ∧
    replies (after (exec (.translate hdr 0 (2 ^ 57)) (given 0x0104 [(8, 8, 2 ^ 57)] s))) = [(0x104, 0, 0, 0)] ∧
    Given (given 0x0107 [(4, 4, 2 ^ 31)] r) hdr 0x0107 [(0, 2, 0), (2, 1, 0), (4, 4, 2 ^ 31)] ∧
    ((after (exec (.resume hdr 0 false 0x80000000) (given 0x0107 [(4, 4, 2 ^ 31)] r))).ctx 0 false).stream.map (·.phase) = [.running] ∧
    (r.ctx 0 false).stream.all (fun o => o.suspendedNow) = true ∧
    Given (given 0x0106 [(8, 8, s.globalAddr (3 * 2 ^ 37 - 8)), (16, 8, 5), (24, 8, 8)] s) hdr 0x0106
      [(8, 8, s.globalAddr (3 * 2 ^ 37 - 8)), (16, 8, 5), (24, 8, 8)] ∧
    Given (given 0x0105 [(0, 1, 1), (16, 8, s.globalAddr (3 * 2 ^ 37 - 1)), (24, 8, 1)] s) hdr 0x0105
      [(0, 1, 1), (8, 8, 0), (16, 8, s.globalAddr (3 * 2 ^ 37 - 1)), (24, 8, 1)] := by
  exact ⟨by decide, given_of (by decide), given_of (by decide), by decide, given_of (by decide), by decide, given_of (by decide),
    by decide, given_of (by decide), by decide, by decide, given_of (by decide), given_of (by decide)⟩

/-- A COPY of a byte from host memory to the top of package memory: its read, and the completion. -/
theorem wit_copy_completes :
    let s := { State.reset with power := { Power.reset with domOff := [] } }
    let g := given 0x0105 [(0, 1, 1), (16, 8, s.globalAddr (3 * 2 ^ 37 - 1)), (24, 8, 1)] s
    let u := after (exec (.copy hdr true false 0 (s.globalAddr (3 * 2 ^ 37 - 1)) 1) g)
    (u.host.copies.map (·.phase) = [1] ∧ u.host.copies.map (·.wait) = [[(0, none, 0, 1)]] ∧ u.host.copies.map (·.bytes.length) = [1] ∧
      u.host.copies.map (·.p.len) = [1] ∧ u.host.out = [.read 0 0 1] ∧ (u.queue 0).state = .active) ∧
    replies (after (exec (.hostReadCompletion 0 (some [7]) false) u)) = [(0x105, 0, 0, 1)] ∧
    (after (exec (.hostReadCompletion 0 (some [7]) false) u)).memory.bytes = [(3 * 2 ^ 37 - 1, 7)] := by decide

/-- An image for tile 0xF8F: one unit of 64 KiB, entry 8, zone 5, a section of 8 bytes. -/
def image1 : List Byte :=
  leBytes 4 0x49384E54 ++ leBytes 4 1 ++ leBytes 8 280 ++ leBytes 4 0x00080001 ++ leBytes 2 1 ++ List.replicate 26 0 ++
  leBytes 4 0x10005 ++ leBytes 4 8 ++ leBytes 8 1 ++ leBytes 8 256 ++ List.replicate 180 0 ++ leBytes 4 3837580400 ++
  leBytes 4 0xF8F ++ leBytes 4 8 ++ leBytes 8 272 ++ leBytes 8 0x1122334455667788
def image1Parsed : Image :=
  { fp := [1, 0, 8, 0, 1] ++ List.replicate 27 0, zone := 5, live := false, own := 1, entry := 8,
    tiles := [(3983, leBytes 8 0x1122334455667788)], laneMask := 0, sets := [], decls := [], key := 0 }
def loadHere : State :=
  { State.reset with power := { Power.reset with domOff := [] }, regions := [(15, { Region.reset with xcalValid := true })] }

def parsesTo (l : List Byte) (i : Image) : Bool := match parseImage l with | .ok j => decide (j = i) | .error _ => false

theorem parse_of {l : List Byte} {i : Image} (h : parsesTo l i = true) : parseImage l = .ok i := by
  unfold parsesTo at h
  split at h
  · next e => rw [e, of_decide_eq_true h]
  · cases h

theorem proof_of_no_exchange (v : ProofEnv) (e : Nat) (h : e < v.size) : v.run e [] = none := by
  simp [ProofEnv.run, Nat.not_le.mpr h]

theorem image1_proved (s : State) : s.proofRun image1Parsed [] = none := by
  simp only [State.proofRun, image1Parsed]
  exact proof_of_no_exchange _ _ (by simp)

def loading : State := given 0x0202 (loadFields 0 4095 (.host image1)) loadHere

theorem image1_parses : parseImage image1 = .ok image1Parsed := parse_of (by decide +kernel)

theorem image1_fits : loading.fingerprintDiff image1Parsed = 0 ∧ loading.clusterBar 0xF8F = none ∧ (loading.tile 0xF8F).vacant = true ∧
    loading.members 5 = [] ∧ (loading.zone 5).aborted = false ∧ (loading.region (regionOf 0xF8F)).xcalValid = true ∧
    ∀ d ∈ placeDomains [0xF8F], loading.domainOn d = true := by decide

theorem loads_here : LoadsHere loading image1 image1Parsed 0xF8F (leBytes 8 0x1122334455667788) :=
  ⟨image1_parses, rfl, rfl, image1_fits.1, image1_fits.2.1, image1_fits.2.2.1, image1_fits.2.2.2.1, image1_fits.2.2.2.2.1,
    image1_fits.2.2.2.2.2.1, image1_proved _, image1_fits.2.2.2.2.2.2⟩

/-- A zone with two members: tile 0's context A LOADED, tile 1's context B DONE. -/
def twoMembers (op : Nat) (l : List (Nat × Nat × Nat)) : State :=
  given op l { State.reset with
    power := { Power.reset with domOff := [] },
    tiles := [(0, { Tile.reset with bound := 1, c0 := { Ctx.reset with phase := .loaded, zone := 3, entry := 16 } }),
              (1, { Tile.reset with c1 := { Ctx.reset with phase := .done, zone := 3 } })] }

def startAs : StartParams := { zone := 3, guest := false, hostZone := 0, budget := none, args := [1, 2, 3, 4] }

/-- A save area of zone 5 at 64: tile 0xF8F with 64 KiB, nothing stored. -/
def saved : State :=
  let i : SavedCtx := { tile := 0xF8F, fromB := true, own := 1, ctx := { Ctx.reset with zone := 5 }, sp := [(65535, 9)], spErr := [] }
  let a : SaveArea :=
    { addr := 64, len := 0, zone := 5, job := 1, role := 0, pair := none, budget := 0, sysSize := 1, zoneMap := 0, laneMask := 0,
      mcCount := 0, mcast := [], items := [i], image := [] }
  given 0x0207 [(8, 8, 64)] { loadHere with host := { HostIf.reset with saves := [a] } }

theorem wit_ProgramCommandsReply :
    (Given (given 0x0202 (loadFields 0 4095 (.host image1)) loadHere) hdr 0x0202 (loadFields 0 4095 (.host image1)) ∧
      Given (given 0x0201 (loadFields 0 4095 (.host image1)) loadHere) hdr 0x0201 (loadFields 0 4095 (.host image1))) ∧
    (let s := twoMembers 0x0203 (startFields startAs)
     Given s hdr 0x0203 (startFields startAs) ∧
     ((s.zone 3).aborted = false ∧ (s.zone 3).laneMask = 0 ∧ (s.zone 3).role = 0 ∧ (s.zone 3).bubble = none ∧ (s.zone 3).first = none ∧
      (0, false) ∈ s.members 3 ∧ (1, true) ∈ s.members 3 ∧ (s.ctx 0 false).phase = .loaded ∧ (s.tile 0).active = none ∧
      (s.ctx 0 true).phase ≠ .loaded ∧ (s.ctx 0 false).saving = false ∧ (s.ctx 0 false).resetPend = false ∧ (s.ctx 0 false).halted = false) ∧
     ((after (exec (.start hdr startAs) s)).ctx 0 false).phase = .active ∧ ((after (exec (.start hdr startAs) s)).ctx 0 false).pc = 16 ∧
     SMap.get 0 ((after (exec (.start hdr startAs) s)).ctx 0 false).args 3 = 4) ∧
    (let s := twoMembers 0x0208 [(0, 1, 3)]
     Given s hdr 0x0208 [(0, 1, 3)] ∧ (s.members 3).all (fun m => decide ((s.ctx m.1 m.2).phase ≠ .active)) = true ∧
     ((after (exec (.unload hdr 3) s)).ctx 0 false).phase = .empty ∧ replies (after (exec (.unload hdr 3) s)) = [(0x208, 0, 0, 0)]) ∧
    Given saved hdr 0x0207 [(0, 1, 0), (8, 8, 64)] ∧
    ((saved.saveAt 64).isSome = true ∧ memWf [(65535, (9 : Byte))] = true ∧ saved.clusterBar 0xF8F = none ∧ (saved.tile 0xF8F).vacant = true ∧
      saved.members 5 = [] ∧ (saved.zone 5).aborted = false ∧ (saved.region (regionOf 0xF8F)).xcalValid = true ∧ 64 < saved.capacity ∧
      saved.host.sysSize = 1 ∧ saved.host.zoneMap = 0 ∧ saved.memory.intlvBusy = false) ∧
    (let u := after (exec (.restore hdr 0 64) saved)
     (u.ctx 0xF8F false).phase = .loaded ∧ SMap.get 0 (u.tile 0xF8F).sp 65535 = 9) := by
  exact ⟨⟨given_of (by decide), given_of (by decide)⟩, ⟨given_of (by decide), by decide, by decide, by decide, by decide⟩,
    ⟨given_of (by decide), by decide, by decide, by decide⟩, given_of (by decide), by decide, by decide⟩

/-- Zone 3, host or guest of zone 4, both with a context on tile 0. -/
def zoned (op : Nat) (l : List (Nat × Nat × Nat)) (h g : Zone) : State :=
  given op l { State.reset with
    power := { Power.reset with domOff := [] }, zones := [(3, h), (4, g)],
    tiles := [(0, { Tile.reset with bound := 1, c0 := { Ctx.reset with phase := .active, zone := 3 },
                                    c1 := { Ctx.reset with phase := .loaded, zone := 4 } })] }

theorem wit_ZoneCommandsReply :
    let z := Zone.reset
    let s (op : Nat) (l : List (Nat × Nat × Nat)) := zoned op l z z
    let paired (b : Option Word) := zoned 0x0302 [(0, 1, 3)] { z with role := 1, pair := some 4, bubble := b } { z with role := 2, pair := some 3 }
    let x (op : Nat) : State := { given op [(0, 1, 2)] (grouped true XGroup.reset) with power := { Power.reset with domOff := [] } }
    (Given (s 0x0204 [(0, 1, 3)]) hdr 0x0204 [(0, 1, 3), (1, 1, 0)] ∧ Given (s 0x0205 [(0, 1, 3)]) hdr 0x0205 [(0, 1, 3), (1, 1, 0)] ∧
      Given (s 0x0206 [(0, 1, 3), (16, 8, 81920)]) hdr 0x0206 [(0, 1, 3), (1, 1, 0), (8, 8, 0), (16, 8, 81920)] ∧
      Given (s 0x0204 [(0, 1, 3), (1, 1, 1)]) hdr 0x0204 [(0, 1, 3), (1, 1, 1)] ∧ Given (s 0x0209 [(0, 1, 3)]) hdr 0x0209 [(0, 1, 3)]) ∧
    (Given (s 0x0301 [(0, 1, 3), (1, 1, 4)]) hdr 0x0301 [(0, 1, 3), (1, 1, 4)] ∧ Given (paired none) hdr 0x0302 [(0, 1, 3)] ∧
      Given (s 0x020A [(0, 1, 8), (1, 1, 64)]) hdr 0x020A [(0, 1, 8), (1, 1, 64)] ∧
      Given (s 0x0303 [(0, 1, 3), (2, 2, 9)]) hdr 0x0303 [(0, 1, 3), (2, 2, 9), (4, 2, 0)] ∧
      Given (x 0x0304) hdr 0x0304 [(0, 1, 2)] ∧ Given (x 0x0305) hdr 0x0305 [(0, 1, 2)] ∧ Given (x 0x0306) hdr 0x0306 [(0, 1, 2)]) ∧
    (let t := s 0x0206 [(0, 1, 3), (16, 8, 81920)]
     t.members 3 ≠ [] ∧ (t.zone 3).aborted = false ∧ (t.xgroup 3).enabled = false ∧ t.saveNeed 3 = 81920 ∧
      t.pairOk 3 4 = true ∧ t.pairOk 3 3 = false ∧ ((t.members 4).all fun m => !(t.ctx m.1 m.2).begun) = true ∧
      ((after (exec (.evict hdr 3 false 0 81920) t)).zone 3).reqs.map (·.kind) = [.evict 0]) ∧
    (let t := s 0x0204 [(0, 1, 3), (1, 1, 1)]
     ((after (exec (.stop hdr 3 true false) t)).ctx 0 false).phase = .faulted ∧ t.inExchange 0 false = false) ∧
    ((after (exec (.pair hdr 3 4 none) (s 0x0301 [(0, 1, 3), (1, 1, 4)]))).zone 4).budget = 500 ∧
    ((paired (some 0)).zone 3).bubble.isSome = true ∧ (after (exec (.unpair hdr 3) (paired (some 0)))).host.waits.length = 1 ∧
    (((paired none).zone 3).role = 1 ∧ ((paired none).zone 3).pair = some 4 ∧ ((paired none).zone 3).bubble = none ∧
      ((after (exec (.unpair hdr 3) (paired none))).zone 3).role = 0) ∧
    (let t := s 0x020A [(0, 1, 8), (1, 1, 64)]
     t.arb.busy = false ∧ t.mapNamed hdr [(0, 1, 8), (1, 1, 64)] false = true ∧ t.arb.insts = [] ∧
      (∀ k, k < 9 → Arb.badShadow { t.arb with nShadow := SMap.put 8 t.arb.nShadow 8 64 } k = false)) ∧
    (let t := s 0x0303 [(0, 1, 3), (2, 2, 9)]
     (0 : BitVec 16).extractLsb' 0 15 = t.fabric.devId ∧ t.isTn6 0 = false ∧ (∀ o, (t.xgroup o).enabled = false)) ∧
    (((x 0x0306).xgroup 2).enabled = true ∧ ((x 0x0306).xgroup 2).state ≠ 3 ∧ ((x 0x0306).xgroup 2).isRoot = true ∧
      ((x 0x0306).xgroup 2).calState ≠ 1 ∧ ((x 0x0306).xgroup 2).edges.find? (fun e => e.2.valid) = some (0, edge 11) ∧
      ((after (exec (.groupDelete hdr 2) (x 0x0304))).xgroup 2).enabled = false ∧
      ((after (exec (.groupAbort hdr 2) (x 0x0305))).xgroup 2).cause = 4 ∧
      ((after (exec (.groupSweep hdr 2) (x 0x0306))).xgroup 2).calState = 1) := by
  exact ⟨⟨given_of (by decide), given_of (by decide), given_of (by decide), given_of (by decide), given_of (by decide)⟩,
    ⟨given_of (by decide), given_of (by decide), given_of (by decide), given_of (by decide), given_of (by decide),
      given_of (by decide), given_of (by decide)⟩, by decide, by decide, by decide, by decide, by decide, by decide, by decide, by decide, by decide⟩

/-! Resets, boot and the pins. -/

def ready (f : Chip → Chip) : State :=
  { ran id with chip := f { Chip.reset with powered := true, perst := false, stage := 9, pg := [0, 1, 2, 3, 4, 5, 6] },
                host := { HostIf.reset with ready := true, power := .d0 } }

theorem wit_ResetsClearAndKeep :
    let s := ready id
    let off := ready fun c => { c with pg := [0, 1, 2, 3, 4, 5], heldReset := some (3, false) }
    let boot := { ready (fun c => { c with stage := 2 }) with host := HostIf.reset }
    let keyed : Word32 := 0x8000A5C3
    let armed := ready fun c => { c with keyArmed := true }
    (s.chip.allPg = true ∧ s.inReset = false ∧ s.chip.perst = false ∧ off.chip.allPg = false ∧ boot.inReset = true ∧
      keyed.extractLsb' 0 16 = 0xA5C3 ∧ keyed.getLsbD 31 = true ∧ (6 ∈ s.chip.pg) ∧ (1 ∈ s.chip.pg) ∧ (6 ∉ off.chip.pg) ∧
      off.inReset = false ∧ ({ off.chip with pg := 6 :: off.chip.pg } : Chip).allPg = true) ∧
    ((after (exec .powerOnReset s)).chip.cause = 1 ∧ (after (exec .pgAonFall s)).chip.powered = false ∧
      (after (exec .perstAssert s)).chip.stage = 1 ∧
      (after (exec .perstDeassert (ready fun c => { c with perst := true, stage := 1 }))).chip.stage = 2) ∧
    ((after (exec (.pgFall 6) s)).log.fenced = true ∧ (after (exec (.pgFall 6) (ready fun c => { c with stage := 1 }))).log.fenced = false ∧
      ((after (exec (.pgInputRise 6) off)).ctx 0 false).phase = .empty) ∧
    (after (exec .pgTimeout (ready fun c => { c with stage := 1, pg := [0] }))).chip.fail = 1 ∧
    ((after (exec (.warmReset keyed) s)).chip.cause = 9 ∧ (after (exec (.warmReset keyed) boot)).chip.cause = 257 ∧
      (after (exec (.warmReset 0x8000A5C2) s)).chip.cause = s.chip.cause ∧
      (after (exec (.warmReset keyed) (ready fun c => { c with pg := [0] }))).chip.heldReset = some (3, false) ∧
      (after (exec .hotReset s)).chip.cause = 5 ∧ (after (exec .functionLevelReset s)).host.ready = false) ∧
    (((after (exec (.tileReset 0x80000000) armed)).ctx 0 false).phase = .empty ∧
      armed.validTile ((0x80000000 : Word32).extractLsb' 0 12) = true ∧ regionOf 0xF8F = 15 ∧ (armed.cluster 0).pend = none ∧
      (let r := after (exec (.regionReset 0x80008000) armed); r.chip.keyArmed = false ∧ r.chip.cause.getLsbD 5 = true) ∧
      ((after (exec (.contextReset 0x80000000) armed)).ctx 0 false).phase = .empty ∧
      (after (exec (.contextReset 0x80000000) armed)).chip.keyArmed = false) := by decide

theorem wit_BootAndPins :
    let s := ready id
    let boot (f : Chip → Chip) : State := { ready (fun c => f { c with stage := 2, pinsDue := false }) with host := HostIf.reset }
    let env : BootEnv := { selfTestOk := true, slot0 := some [], slot1 := none, hbmFail := none, badCrossings := [], depth := 3, depths := [],
                           devId := none, portCfg := [], repairOk := true, mfp := [], model := [] }
    let b := boot id
    let rcv := boot fun c => { c with stage := 3, rcvState := 2, rcvLen := 256 }
    let pins (p : Pin) : State := ready fun c => { c with pins := [(20, p)] }
    let p4 := { Pin.reset with func := 6 }
    let r (row unit : Nat) (v : Int) : ExtReport := { row := row, unit := unit, value := v, lo := 0, ref := 100 }
    ((b.bootable = true ∧ b.chip.rcvState = 0 ∧ b.chip.stage = 2 ∧ b.chip.slot0 ≠ 2 ∧ b.chip.warmBusy = false ∧ s.bootable = false ∧
      b.verifyImage [] = 3 ∧ (boot fun c => { c with rcvState := 6, stage := 5 }).bootable = true) ∧
     (after (exec (.bootSequence env) b)).chip.rcvState = 1 ∧ (after (exec (.bootSequence env) b)).chip.slot0 = 3 ∧
     (after (exec (.bootSequence { env with selfTestOk := false }) b)).chip.fail = 2 ∧
     (after (exec (.bootSequence { env with slot0 := none }) b)).chip.stage = 3 ∧
     ((after (exec (.bootFlashReadTimeout 1) (boot fun c => { c with retries := [(1, 2)] }))).chip.slot1 = 0 ∧
      (after (exec (.bootFlashReadTimeout 1) (boot fun c => { c with retries := [(1, 3)] }))).chip.slot1 = 2)) ∧
    (rcv.inRecovery = true ∧ b.inRecovery = false ∧ ((4194560 : Word32).extractLsb' 0 23).toNat = 4194560 ∧
      (after (exec (.recoveryBootStart 0x80000100) rcv)).chip.rcvLen = 256 ∧ after (exec (.recoveryBootStart 0x800000FF) rcv) = rcv ∧
      (after (exec (.recoveryBootData 7) rcv)).chip.rcvData = [7, 0, 0, 0] ∧ (after (exec (.recoveryBootDone 0x40000000) rcv)).chip.rcvState = 4 ∧
      (after (exec .recoveryTransferStall rcv)).chip.rcvState = 5) ∧
    (((after (exec (.mfpSelect 20 6 true) (pins p4))).pin 20).want = none ∧
      ((after (exec (.mfpSelect 20 8 true) (pins p4))).pin 20).want = some 8 ∧
      ((after (exec (.mfpSelect 20 0x40000008 true) (pins p4))).pin 20).func = 8 ∧
      ((after (exec (.mfpPendingSwitch 20) (pins { p4 with want := some 1 }))).pin 20).func = 1 ∧
      (∀ m ∈ pinGroup 1 20, ({ pins { p4 with func := 1, parked := some 0 } with time := 32 }.pin m).func = 1 ∧
        { pins { p4 with func := 1, parked := some 0 } with time := 32 }.parkDone m = true) ∧
      ((after (exec (.mfpParkEnd 20) { pins { p4 with func := 1, parked := some 0 } with time := 32 })).pin 20).parked = none ∧
      ((pins p4).pin 20).startAt = none ∧ ((after (exec (.inputFilterChange 20 false) (pins p4))).pin 20).level = false ∧
      ((after (exec (.inputFilterChange 20 false) (pins { p4 with startAt := some 0, filter := 1 }))).pin 20).level = true) ∧
    (after (exec (.extFaultClear 0) (ready fun c => { c with extRange := 9 }))).chip.extRange = 0 ∧
    (after (exec (.regulatorReport (r 3 0 125)) s) = s ∧ (after (exec (.regulatorReport (r 3 0 126)) s)).chip.extRange = 1 ∧
      (let v : Int := (s.dieTherm 1).vcore.toNat
       9 * v ≤ 10 * v ∧ 10 * v ≤ 11 * v ∧ v - v ≤ 10) ∧
      (after (exec (.regulatorReport (r 5 0 30001)) s)).log.staged.length = 2) ∧
    ((after (exec (.pmbusTimeout 1) (ready fun c => { c with retries := [(17, 2)] }))).chip.unresponsive = [] ∧
      (after (exec (.pmbusTimeout 1) (ready fun c => { c with retries := [(17, 3)] }))).chip.unresponsive = [1] ∧
      (after (exec (.smbusTimeout 11) s)).chip.busClears = [11] ∧ (after (exec (.spiTimeout 5) s)).chip.extTimeout = 1 ∧
      (after (exec .recordAreaFlashTimeout (ready fun c => { c with retries := [(2, 3)] }))).log.staged.length = 1) := by decide

/-- An image passes verification where its key is one the fuses hold and its signature is good: which bytes those are is no
choice of the model (assumption 59). -/
theorem verify_image_when (s : State) (img : List Byte) (h : headerOk img = true) (slot : fieldAt img 6 1 ≤ 2)
    (live : s.fuses.keyRevoked = []) (key : Config.sha384 ((img.drop 32).take 97) = SMap.get 0 s.fuses.keyHashes (fieldAt img 6 1))
    (svn : s.fuses.minSvn.toNat ≤ fieldAt img 8 4)
    (sig : Config.signatureOk ((img.drop 32).take 97 ++ (img.drop 136).take 96) (imageDigest img (fieldAt img 16 4)) = true) :
    s.verifyImage img = 1 := by
  simp [State.verifyImage, h, live, key, sig, Nat.not_lt.mpr slot, Nat.not_lt.mpr svn]

/-! Errors and recovery, debug and trace. -/

theorem wit_ErrorsAreRecordedAndRecovered :
    let s := ready id
    let w : Window := { level := 0, unit := 0, tile := 0, ctx := false, opened := 0, rec1 := none, rec2 := none, program := false, action := 1 }
    let opened (w : Window) : State := { s with log := { s.log with windows := [w] } }
    let a : Record := { index := 5, count := 1, firstRc := 0, lastRc := 0, code := 0x0405, cls := 2, escalated := false, absorbed := false,
                        multiUnit := false, level := 3, unit := 0, ctx := false, pos := 0, action := 0, detail := 0, catchAll := false, key := 0 }
    let staged := { s with log := { s.log with staged := [a, a] } }
    (s.chip.powered = true ∧ s.chip.stage ≠ 1 ∧ s.inReset = false ∧ s.chip.allPg = true ∧ s.log.errs.length < 7168 ∧
      (s.ctx 0 false).phase = .active ∧ s.validTile 0 = true ∧ (s.tile 0).active = some false) ∧
    ((after (exec .lockstepMismatch s)).chip.cause = 17 ∧
      (after (exec .lockstepMismatch { s with host := HostIf.reset })).log.errs.map (·.absorbed) = [true]) ∧
    (((after (exec (.engineParityError 0 false 0 4) s)).ctx 0 false).phase = .faulted ∧
      ((after (exec (.engineParityError 0 false 0 0) s)).ctx 0 false).phase = .faulted ∧
      ((after (exec (.engineParityError 0 false 0 5) s)).ctx 0 false).phase = .faulted ∧ s.inExchange 0 false = false ∧
      exchanging.inExchange 0 false = true ∧ (exchanging.ctx 0 false).phase = .active ∧
      ((after (exec (.engineParityError 0 false 0 4) exchanging)).ctx 0 false).phase = .active ∧
      ((after (exec (.engineParityError 0 false 0 4) exchanging)).ctx 0 false).stopPend.isSome = true) ∧
    ((opened w).windowAt 0 0 = some w ∧ (after (exec (.recoveryActionDone ⟨0, 0⟩ true true) (opened w))).log.windows = [] ∧
      (let w1 := { w with level := 1, unit := 0, action := 3 }
       (opened w1).windowAt 1 0 = some w1 ∧ ((after (exec (.recoveryActionDone ⟨1, 0⟩ true true) (opened w1))).ctx 0 false).phase = .empty ∧
         (s.cluster 0).pend = none ∧ (s.cluster 0).active = none ∧ (s.cluster 0).spareFailed = false ∧
         ((after (exec (.recoveryActionDone ⟨1, 0⟩ false true) (opened w1))).cluster 0).active = some 0 ∧
         ((after (exec (.recoveryWindowTimeout ⟨1, 0⟩ true) (opened w1))).log.errs.any fun r => r.code = 0x0304) = true) ∧
      (let w2 := { w with level := 2, unit := 0, action := 4 }
       (opened w2).windowAt 2 0 = some w2 ∧
         (let u := after (exec (.recoveryActionDone ⟨2, 0⟩ true false) (opened w2))
          u.windowAt 2 0 = none ∧ (u.cluster 0).spareFailed = true ∧ (u.ctx 0 false).phase = .empty)) ∧
      (let w3 := { w with level := 3, unit := 0, action := 5 }
       let held := { opened w3 with arb := { s.arb with hold := true, granted := true } }
       (opened w3).windowAt 3 0 = some w3 ∧ (opened w3).busHeld = false ∧ held.busHeld = true ∧
         (after (exec (.recoveryActionDone ⟨3, 0⟩ true true) (opened w3))).chip.cause.getLsbD 5 = true ∧
         (after (exec (.recoveryActionDone ⟨3, 0⟩ true true) held)).log.windows = [w3]) ∧
      (opened w).windowAt 1 (16 * clusterOf 0) = none ∧
      (after (exec (.recoveryWindowTimeout ⟨0, 0⟩ false) (opened w))).log.windows.map (fun w => (w.level, w.action)) = [(1, 3), (0, 1)] ∧
      (opened { w with program := true }).windowAt 0 0 = some { w with program := true } ∧
      ((after (exec (.quiesceTimeout 0 false) (opened w))).ctx 0 false).phase = .empty ∧ s.windowAt 0 0 = none) ∧
    ((after (exec .alarmDelivery staged)).log.staged = [a] ∧ (after (exec .alarmDelivery staged)).log.alarms.length = 1) ∧
    (after (exec (.rasHosterrClear 0) { s with log := { s.log with hostErr := 0xFFFFFFFF } })).log.hostErr = 0 := by decide

/-- A context's halted state, its breakpoints and its tile's trace queue. -/
def halted (op : Nat) (l : List (Nat × Nat × Nat)) (y : Ctx) : State :=
  given op l { State.reset with
    power := { Power.reset with domOff := [] },
    tiles := [(0, { Tile.reset with bound := 32, c0 := { y with phase := .active }, sp := [(8, 5), (0x1FFFFF, 9)] })] }

theorem wit_DebugCommandsAndTrace :
    let h := halted 0x0701 [(2, 2, 0)] Ctx.reset
    let stopped (n : Nat) := halted 0x0703 [(8, 4, n)] { Ctx.reset with halted := true, pc := 64 }
    let m (op sp addr len : Nat) := halted op [(0, 1, sp), (8, 8, addr), (24, 4, len)] { Ctx.reset with halted := true, regs := [(31, 6)] }
    let dmAt (sp : BitVec 8) (addr len : Nat) : DbgMem := { space := sp, tile := 0, ctx := false, addr := addr, buf := 0, len := len }
    let e : TraceEvent := { time := 3, tile := 0xF80, ctx := true, type := 255, payload := 7 }
    let traced (lost : Nat) (ctl : Word32) : State := { ready id with
      power := { Power.reset with domOff := [] }, clusters := [(248, { Cluster.reset with trq := [e], trqLost := lost })],
      regions := [(15, { Region.reset with trcCtl := ctl })] }
    (Given h hdr 0x0701 [(0, 1, 0), (2, 2, 0), (4, 1, 0)] ∧ Given (halted 0x0702 [(0, 1, 4)] Ctx.reset) hdr 0x0702 [(0, 1, 4), (2, 2, 0), (4, 1, 0)] ∧
      Given (stopped 0) hdr 0x0703 [(2, 2, 0), (4, 1, 0), (8, 4, 0)] ∧
      Given (stopped 0xFFFFFFFF) hdr 0x0703 [(2, 2, 0), (4, 1, 0), (8, 4, 0xFFFFFFFF)] ∧
      Given (m 0x0704 0 0x1FFFF8 8) hdr 0x0704 [(0, 1, 0), (2, 2, 0), (4, 1, 0), (8, 8, 0x1FFFF8), (16, 8, 0), (24, 4, 8)] ∧
      Given (m 0x0705 2 0x101F 8) hdr 0x0705 [(0, 1, 2), (2, 2, 0), (4, 1, 0), (8, 8, 0x101F), (16, 8, 0), (24, 4, 8)]) ∧
    (Given (halted 0x0706 [(5, 1, 8)] Ctx.reset) hdr 0x0706 [(2, 2, 0), (4, 1, 0), (5, 1, 8), (8, 8, 0)] ∧
      Given (halted 0x0707 [(0, 1, 2)] Ctx.reset) hdr 0x0707 [(0, 1, 2), (2, 2, 0), (4, 4, 0), (8, 8, 0)] ∧
      Given (halted 0x0708 [(4, 1, 5), (5, 1, 7), (8, 8, 64)] Ctx.reset) hdr 0x0708 [(2, 2, 0), (4, 1, 5), (5, 1, 7), (8, 8, 64)]) ∧
    (h.host.waits = [] ∧ h.tileOk 0 = true ∧ h.domainOn (domainOf 0) = true ∧ h.inExchange 0 false = false ∧
      ((h.scopeCtxs (scopeOf 0 0 0 false)).all fun e => !h.inExchange e.1 e.2 && !(h.ctx e.1 e.2).haltPend) = true ∧
      ((stopped 0).ctx 0 false).halted = true ∧ ((stopped 0).ctx 0 false).steps = 0) ∧
    (((after (exec (.halt hdr 0 0 false) h)).ctx 0 false).halted = true ∧
      ((after (exec (.step hdr 0 false 0xFFFFFFFF) (stopped 0xFFFFFFFF))).ctx 0 false).steps = 0xFFFFFFFF ∧
      replies (after (exec (.step hdr 0 false 0) (stopped 0))) = [(0x703, 0, 0, 64)] ∧
      (HostOut.write 0 [0, 0, 0, 0, 0, 0, 0, 9] false) ∈ (after (exec (.memRead hdr (dmAt 0 0x1FFFF8 8)) (m 0x0704 0 0x1FFFF8 8))).host.out ∧
      replies (after (exec (.memRead hdr (dmAt 0 0x1FFFF9 8)) (m 0x0704 0 0x1FFFF9 8))) = [(0x704, 9, 0, 0)] ∧
      ((after (exec (.memWrite hdr (dmAt 2 0x101F 8) (some [9, 0, 0, 0, 0, 0, 0, 0])) (m 0x0705 2 0x101F 8))).ctx 0 false).reg 31 = 9 ∧
      replies (after (exec (.memWrite hdr (dmAt 2 0x101F 8) none) (m 0x0705 2 0x101F 8))) = [(0x705, 9, 0, 0)] ∧
      (SMap.get 0 ((after (exec (.breakSet hdr 0 5 7 64) (halted 0x0708 [(4, 1, 5), (5, 1, 7), (8, 8, 64)] Ctx.reset))).tile 0).wp 1) =
        0xF8C0000000000040) ∧
    (((traced 0 0).cluster (16 * 15 + 8)).trq = [e] ∧ (traced 0 0).domainOn (144 + 15) = true ∧ (traced 0 0).portUp = true ∧
      ((after (exec (.traceWrite 15 8) (traced 0 0))).region 15).trcNext = 1 ∧
      ((after (exec (.traceWrite 15 8) (traced 1 0))).region 15).trcNext = 2 ∧
      ((after (exec (.traceWrite 15 8) (traced 0 0x40000000))).region 15).trcLost = 1) := by
  exact ⟨⟨given_of (by decide), given_of (by decide), given_of (by decide), given_of (by decide), given_of (by decide), given_of (by decide)⟩,
    ⟨given_of (by decide), given_of (by decide), given_of (by decide)⟩, by decide, by decide, by decide⟩

theorem wit_DebugPortOperations :
    let s (f : Dbg → Dbg) : State := { halted 0 [] { Ctx.reset with halted := true, pc := 64, regs := [(31, 6)] } with dbg := f Dbg.reset }
    let t := s id
    let a (sp : BitVec 3) (off : Word) : DbgAcc := { space := sp, ctx := false, tile := 0, addr := off, data := 0x1FF }
    (t.chip.powered = true ∧ t.dbg.tapBusy = false ∧ t.dbg.op = none ∧ t.dbg.tapEn = true ∧ t.arb.granted = false ∧ t.host.waits = [] ∧
      t.validTile 0 = true ∧ t.domainOn (domainOf 0) = true ∧ (t.tile 0).badWord 0x1FFFF8 8 = none) ∧
    ((after (exec (.dbgaccHalt (a 0 0)) (s fun d => { d with tapEn := false }))).dbg.status = 5 ∧
      after (exec (.dbgaccHalt (a 0 0)) (s fun d => { d with tapBusy := true })) = s (fun d => { d with tapBusy := true }) ∧
      (after (exec .dbgaccHold t)).dbg.tapHold = true ∧ (after (exec .dbgaccReserved t)).dbg.status = 6 ∧
      (after (exec .dbgaccRelease (s fun d => { d with tapHold := true }))).dbg.tapHold = false) ∧
    ((after (exec (.dbgaccRegRead (a 0 0x20)) t)).dbg.data = 1 ∧ (after (exec (.dbgaccRegWrite (a 0 0x20)) t)).chip.cause = 0 ∧
      (after (exec (.dbgaccRegRead (a 0 0x22)) t)).dbg.status = 4 ∧ (after (exec (.dbgaccRegRead (a 0 0x4000000)) t)).dbg.status = 4) ∧
    ((after (exec (.dbgaccRead8 (a 0 0x1FFFFF)) t)).dbg.data = 0x0900000000000000 ∧
      (after (exec (.dbgaccRead8 (a 0 0x200000)) t)).dbg.status = 4 ∧ (after (exec (.dbgaccRead8 (a 2 0x101F)) t)).dbg.data = 6 ∧
      ((after (exec (.dbgaccWrite8 (a 2 0x101F)) t)).ctx 0 false).reg 31 = 0x1FF) ∧
    (((after (exec (.dbgaccRun (a 0 0)) t)).ctx 0 false).halted = false ∧ (after (exec (.dbgaccStep (a 0 0)) t)).dbg.data = 64 ∧
      ((after (exec (.dbgaccStep (a 0 0xFFFFFFFF)) t)).ctx 0 false).steps = 0xFFFFFFFF) ∧
    ((after (exec .tapReset (s fun d => { d with tapHold := true }))).dbg.abandoned = true ∧
      (after (exec .tapReset t)).dbg = t.dbg ∧ t.arb.insts = [] ∧ t.arb.busy = false ∧ (after (exec .tapExtest t)).log.fenced = true) := by
  decide

end Sys2Proof.Tests
end

section
/-! SUPPORT. A write of a T_ register by TWR, TWRI and T_STP_TN6_ACCESS (R14, R169, R186, R187, R197). -/

namespace Sys2Proof.Machine

/-! ### Issue of an instruction that may stall -/

/-- An instruction that may stall and does not, and whose effect is a change of its context that leaves the gate open and does not
halt it (R47, R49). -/
theorem Ready.issueUnless_ctx {s : State} {t : TileId} {c : Bool} (h : Ready s t c) {stall : Bool → Bool} {f : Bool → State → State}
    (hs : stall c = false) (g : Ctx → Ctx) (hf : ∀ w, f c w = w.modCtx t c g)
    (hg : (g { s.ctx t c with skipMatch := false }).gate = Gate.none)
    (hh : (g { s.ctx t c with skipMatch := false }).halted = false) :
    ∃ u, s.issueUnless t stall f = .next u ∧ OnlyCtx s u t c (g { s.ctx t c with skipMatch := false }) := by
  have hissue : s.issueUnless t stall f = s.issue t f := by
    unfold State.issue State.issueUnless
    rw [h.issuer_eq]
    simp only [hs]
  rw [hissue]
  exact h.issue_ctx f g hf hg hh

/-- A change of a context's registers that concerns neither its place in the program, nor its gate, nor its halting. -/
structure KeepsIssue (g : Ctx → Ctx) (y : Ctx) : Prop where
  skipMatch : g { y with skipMatch := false } = { g y with skipMatch := false }
  pc : (g y).pc = y.pc
  gate : (g y).gate = y.gate
  halted : (g y).halted = y.halted

/-! ### Writes of T_ registers -/

/-- The write of a T_ register stalls in M (R98, R169, R300). -/
def State.twrStalls (s : State) (t : TileId) (a : Nat) (c : Bool) : Bool :=
  (decide (a = 0x033) && !s.tn6Ready t c) || s.landingAt t c a

/-- The post engine lands only in the configuration of a ring's descriptor (R98, R300). -/
theorem State.landingAt_eq_false (s : State) (t : TileId) (c : Bool) (a : Nat) (ha : a < 0x050 ∨ 0x060 ≤ a ∨ a % 2 = 1) :
    s.landingAt t c a = false := by
  have hk (m : Nat) : bits m 13 3 < 8 := Nat.mod_lt _ (by decide)
  unfold State.landingAt
  rw [List.any_eq_false]
  intro l _
  have := hk l.msg.msg.tag.toNat
  have hne : a ≠ 0x040 + 2 * (8 + bits l.msg.msg.tag.toNat 13 3) := by omega
  simp [hne]

/-- A write that waits changes nothing. -/
theorem Ready.twr_stall {s : State} {t : TileId} {c : Bool} (h : Ready s t c) (a : Nat) (v : Ctx → Word)
    (hs : s.twrStalls t a c = true) : s.twr t a v = .next s :=
  h.issue_stall _ (s.twrStalls t a) hs

/-- The write of register a by context c, with the move to the next word after it, is the change g of the context. -/
def WriteChanges (t : TileId) (c : Bool) (a : Nat) (g : Word → Ctx → Ctx) : Prop :=
  ∀ (s : State) (x : Word), ∃ u, s.tWrite t c a x = some u ∧ u.advance t c = s.modCtx t c fun y => { g x y with pc := y.pc + 8 }

/-- A write that changes the context, and no program counter. -/
theorem WriteChanges.of_modCtx {t : TileId} {c : Bool} {a : Nat} {g : Word → Ctx → Ctx}
    (hw : ∀ s x, State.tWrite s t c a x = some (s.modCtx t c (g x))) (hg : ∀ x y, KeepsIssue (g x) y) : WriteChanges t c a g :=
  fun s x => ⟨_, hw s x, by simp only [State.advance, State.modCtx_modCtx, (hg _ _).pc]⟩

/-- A write that is ignored only moves on. -/
theorem WriteChanges.of_ignored {t : TileId} {c : Bool} {a : Nat} (hw : ∀ s x, State.tWrite s t c a x = some s) :
    WriteChanges t c a fun _ y => y :=
  fun s x => ⟨s, hw s x, rfl⟩

/-- A write whose effect is a change of the context's registers: the change, and the move to the next word. -/
theorem Ready.twr_eq {s : State} {t : TileId} {c : Bool} (h : Ready s t c) {a : Nat} {v : Ctx → Word} {g : Word → Ctx → Ctx}
    (hs : s.twrStalls t a c = false) (hw : WriteChanges t c a g)
    (hg : ∀ x y, KeepsIssue (g x) y) (hv : v { s.ctx t c with skipMatch := false } = v (s.ctx t c)) :
    ∃ u, s.twr t a v = .next u ∧ OnlyCtx s u t c (g (v (s.ctx t c)) (s.ctx t c)).next := by
  have hnext : { g (v { s.ctx t c with skipMatch := false }) { s.ctx t c with skipMatch := false } with
      pc := (s.ctx t c).pc + 8 } = (g (v (s.ctx t c)) (s.ctx t c)).next := by
    rw [hv, (hg _ _).skipMatch, Ctx.next, (hg _ _).pc]
  rw [← hnext]
  refine h.issueUnless_ctx (stall := s.twrStalls t a) hs (fun y => { g (v y) y with pc := y.pc + 8 }) (fun w => ?_) ?_ ?_
  · obtain ⟨u, hu, hadv⟩ := hw w (v (w.ctx t c))
    simp only [hu, hadv]
    rfl
  · rw [hnext]
    exact (hg _ _).gate.trans h.gateOpen
  · rw [hnext]
    exact (hg _ _).halted.trans h.notHalted

/-- Both forms of the write are a write of the value that they name, whatever breakpoint has been passed. -/
theorem writesT_exec {i : Instr} {t : TileId} {y : Ctx} {a : BitVec 12} {x : Word} (h : WritesT i t y a x) :
    ∃ v : Ctx → Word, (∀ s, exec i s = s.twr t a.toNat v) ∧ v y = x ∧ ∀ z, v { z with skipMatch := false } = v z := by
  rcases h with ⟨rs1, rfl, rfl⟩ | ⟨imm, rfl, rfl⟩
  · exact ⟨fun y => y.reg rs1, fun _ => rfl, rfl, fun _ => rfl⟩
  · exact ⟨fun _ => imm.zeroExtend 64, fun _ => rfl, rfl, fun _ => rfl⟩

section
variable {s : State} {t : TileId} {c : Bool} {i : Instr} {a : BitVec 12} {x : Word}

/-- TWR and TWRI that do not wait, of a register whose write changes the context's registers. -/
theorem writesT_becomes (hi : WritesT i t (s.ctx t c) a x) (h : Ready s t c) {g : Word → Ctx → Ctx}
    (hs : s.twrStalls t a.toNat c = false) (hw : WriteChanges t c a.toNat g) (hg : ∀ x y, KeepsIssue (g x) y) :
    ∃ u, exec i s = .next u ∧ OnlyCtx s u t c (g x (s.ctx t c)).next := by
  obtain ⟨v, hexec, rfl, hv⟩ := writesT_exec hi
  rw [hexec]
  exact h.twr_eq hs hw hg (hv _)

/-- The same, where the write sets the context's registers. -/
theorem writesT_sets (hi : WritesT i t (s.ctx t c) a x) (h : Ready s t c) (g : Word → Ctx → Ctx)
    (hs : s.twrStalls t a.toNat c = false) (hg : ∀ x y, KeepsIssue (g x) y)
    (hw : ∀ w x, State.tWrite w t c a.toNat x = some (w.modCtx t c (g x))) :
    ∃ u, exec i s = .next u ∧ OnlyCtx s u t c (g x (s.ctx t c)).next :=
  writesT_becomes hi h hs (.of_modCtx hw hg) hg

/-- TWR and TWRI that wait change nothing. -/
theorem writesT_waits (hi : WritesT i t (s.ctx t c) a x) (h : Ready s t c) (hs : s.twrStalls t a.toNat c = true) :
    exec i s = .next s := by
  obtain ⟨v, hexec, -, -⟩ := writesT_exec hi
  rw [hexec]
  exact h.twr_stall _ v hs

end

/-! ### What each write does -/

/-- What a write of T_CRn_PTR does to the context (R97). -/
def Ctx.clearSticky (n : Nat) (v : Word) (y : Ctx) : Ctx :=
  y.setCr n { y.cr n with underrun := (y.cr n).underrun && !v.getLsbD 45, overrun := (y.cr n).overrun && !v.getLsbD 44 }

/-- Away from T_STP_TN6 and the configurations of the rings no write waits. -/
theorem State.twrStalls_eq_false (s : State) (t : TileId) (c : Bool) {a : Nat}
    (ha : a ≠ 0x033 ∧ (a < 0x050 ∨ 0x060 ≤ a ∨ a % 2 = 1)) : s.twrStalls t a c = false := by
  simp [State.twrStalls, ha.1, s.landingAt_eq_false t c a ha.2]

/-- A write of T_STP_TN6 waits exactly while Stipple holds work of the context (R169). -/
theorem State.twrStalls_tn6 (s : State) (t : TileId) (c : Bool) : s.twrStalls t 0x033 c = (s.tile t).stipple.has c := by
  simp [State.twrStalls, State.tn6Ready, s.landingAt_eq_false t c 0x033 (by decide)]

/-- A write of an address with no case of its own is one of a descriptor, or ignored (R186, R197). -/
theorem State.tWrite_other (s : State) (t : TileId) (c : Bool) (a : Nat) (v : Word)
    (ha : a ∉ [0x011, 0x020, 0x030, 0x031, 0x032, 0x033, 0x060, 0x085, 0x0C0]) :
    s.tWrite t c a v =
      if 0x040 ≤ a ∧ a < 0x060 then
        if a % 2 = 0 then s.writeCrCfg t c ((a - 0x040) / 2) v
        else some (s.modCtx t c (Ctx.clearSticky ((a - 0x040) / 2) v))
      else some s := by
  unfold State.tWrite
  split
  case h_10 => rfl
  all_goals exact absurd ha (by decide)

/-- A write of T_CRn_PTR clears sticky flags where the written bit is 1 (R97). -/
theorem State.tWrite_crPtr (s : State) (t : TileId) (c : Bool) (n : Fin 16) (v : Word) :
    s.tWrite t c (0x041 + 2 * n) v = some (s.modCtx t c (Ctx.clearSticky n v)) := by
  have hidx : (0x041 + 2 * n.val - 0x040) / 2 = n := by omega
  rw [s.tWrite_other t c _ v (by simp; omega), if_pos (by omega), if_neg (by omega), hidx]

/-- The addresses of these ranges hold registers that are read-only, or none (R186, R187). -/
theorem State.tWrite_ignored (s : State) (t : TileId) (c : Bool) (a : Nat)
    (ha : a < 0x011 ∨ (0x080 ≤ a ∧ a < 0x085) ∨ (0x0C1 ≤ a ∧ a < 0x200)) (v : Word) :
    s.tWrite t c a v = some s := by
  rw [s.tWrite_other t c a v (by simp; omega), if_neg (by omega)]

/-- T_FPCSR after a write, field by field (R117). -/
theorem fpcsrWrite_eq (old : BitVec 13) (v : Word) :
    fpcsrWrite old v = v.extractLsb' 8 5 ++ (0#5) ++
      (if (v.extractLsb' 0 3).toNat ≤ 4 then v.extractLsb' 0 3 else old.extractLsb' 0 3) := by
  have hrm (w : Nat) (b : BitVec w) : bits b.toNat 0 3 = (b.extractLsb' 0 3).toNat := by
    simp [bits, BitVec.extractLsb'_toNat]
  have hfl : bits v.toNat 8 5 = (v.extractLsb' 8 5).toNat := by
    simp [bits, BitVec.extractLsb'_toNat]
  unfold fpcsrWrite
  rw [hrm, hrm, hfl]
  have hcat (fl : BitVec 5) (rm : BitVec 3) : BitVec.ofNat 13 (fl.toNat * 256 + rm.toNat) = fl ++ 0#5 ++ rm := by
    revert fl rm
    decide
  split <;> exact hcat _ _

/-- A write of T_STP_TN6 takes the value once Stipple holds no work of the context (R169). -/
theorem tn6Write_becomes {s : State} {t : TileId} {c : Bool} {i : Instr} {x : Word} (hi : WritesT i t (s.ctx t c) 0x033 x)
    (h : Ready s t c) (hidle : (s.tile t).stipple.has c = false) :
    ∃ u, exec i s = .next u ∧ OnlyCtx s u t c { s.ctx t c with stpTn6 := x }.next :=
  writesT_sets hi h (fun v y => { y with stpTn6 := v }) ((s.twrStalls_tn6 t c).trans hidle)
    (fun _ _ => ⟨rfl, rfl, rfl, rfl⟩) fun _ _ => rfl

/-- Settles O17: each write is a change of the context's registers, or waits, by its address. -/
theorem tRegisterWrites : Obligations.TRegisterWrites := by
  unfold Obligations.TRegisterWrites
  intro s t c i a v h hi
  have hfree (hn : a.toNat ≠ 0x033 ∧ (a.toNat < 0x050 ∨ 0x060 ≤ a.toNat ∨ a.toNat % 2 = 1)) := s.twrStalls_eq_false t c hn
  have htn6 := s.twrStalls_tn6 t c
  refine ⟨?fpcsr, ?ovf, ?strmErr, ?keyLo, ?keyHi, ?ctl, ?tn6, ?tn6Waits, ?accessWaits, ?access, ?crPtr, ?ignored⟩
  case fpcsr =>
    rintro rfl
    rw [← fpcsrWrite_eq]
    exact writesT_sets hi h (fun v y => { y with fpcsr := fpcsrWrite y.fpcsr v }) (hfree (by decide))
      (fun _ _ => ⟨rfl, rfl, rfl, rfl⟩) fun _ _ => rfl
  case ovf =>
    rintro rfl
    exact writesT_sets hi h (fun v y => { y with ovf := y.ovf &&& ~~~ (v.extractLsb' 0 16) }) (hfree (by decide))
      (fun _ _ => ⟨rfl, rfl, rfl, rfl⟩) fun _ _ => rfl
  case strmErr =>
    rintro rfl
    exact writesT_sets hi h (fun v y => { y with strmErr := y.strmErr &&& ~~~ (v &&& 0xC000000000000000) }) (hfree (by decide))
      (fun _ _ => ⟨rfl, rfl, rfl, rfl⟩) fun _ _ => rfl
  case keyLo =>
    rintro rfl
    exact writesT_sets hi h (fun v y => { y with stpKeyLo := v }) (hfree (by decide))
      (fun _ _ => ⟨rfl, rfl, rfl, rfl⟩) fun _ _ => rfl
  case keyHi =>
    rintro rfl
    exact writesT_sets hi h (fun v y => { y with stpKeyHi := v }) (hfree (by decide))
      (fun _ _ => ⟨rfl, rfl, rfl, rfl⟩) fun _ _ => rfl
  case ctl =>
    rintro rfl
    exact writesT_sets hi h (fun v y => { y with stpCtl := v &&& 1 }) (hfree (by decide))
      (fun _ _ => ⟨rfl, rfl, rfl, rfl⟩) fun _ _ => rfl
  case tn6 =>
    rintro rfl hidle
    exact tn6Write_becomes hi h hidle
  case tn6Waits =>
    rintro rfl hwork
    exact writesT_waits hi h (htn6.trans hwork)
  case accessWaits =>
    intro r hwork
    exact writesT_waits (i := .twr t r 0x033) (.inl ⟨r, rfl, rfl⟩) h (htn6.trans hwork)
  case access =>
    intro r hidle
    exact tn6Write_becomes (i := .twr t r 0x033) (.inl ⟨r, rfl, rfl⟩) h hidle
  case crPtr =>
    intro n hn
    have ha : a.toNat = 0x041 + 2 * n := by
      have := n.isLt
      rw [hn, BitVec.toNat_ofNat]
      omega
    exact writesT_sets hi h (Ctx.clearSticky n) (hfree (by omega)) (fun _ _ => ⟨rfl, rfl, rfl, rfl⟩)
      fun w x => ha ▸ w.tWrite_crPtr t c n x
  case ignored =>
    intro ha
    exact writesT_becomes hi h (hfree (by omega)) (.of_ignored fun w => w.tWrite_ignored t c _ ha) fun _ _ => ⟨rfl, rfl, rfl, rfl⟩

end Sys2Proof.Machine
end

section
/-! SUPPORT. Runs of package memory (R343–R345): what a read returns and what a write stores, where no granule holds an error. -/

namespace Sys2Proof.Machine

/-! ### Byte memories -/

@[simp] theorem memRead_length (m : List Host.Cell) (a n : Nat) : (memRead m a n).length = n := by
  induction n generalizing a with
  | zero => rfl
  | succ n ih => rw [memRead, List.length_cons, ih]

@[simp] theorem memRead_getElem (m : List Host.Cell) (a n i : Nat) (h : i < (memRead m a n).length) :
    (memRead m a n)[i] = SMap.get 0 m (a + i) := by
  induction n generalizing a i with
  | zero => exact absurd h (Nat.not_lt_zero _)
  | succ n ih =>
    cases i with
    | zero => rfl
    | succ i => simp only [memRead, List.getElem_cons_succ, ih, Nat.add_right_comm, Nat.add_assoc]

theorem memRead_append (m : List Host.Cell) (a n k : Nat) : memRead m a (n + k) = memRead m a n ++ memRead m (a + n) k := by
  refine List.ext_getElem (by simp) fun i _ _ => ?_
  rw [List.getElem_append]
  split
  · simp
  · next h =>
    simp only [memRead_length, Nat.not_lt] at h
    simp only [memRead_getElem, memRead_length]
    congr 1
    omega

/-- A slice of a read is the read of the slice. -/
theorem sliceBytes_memRead (m : List Host.Cell) (a off n k : Nat) (h : off + n ≤ k) :
    sliceBytes (memRead m a k) off n = memRead m (a + off) n := by
  have hlen : (((memRead m a k).drop off).take n).length = n := by simp; omega
  unfold sliceBytes
  simp only [hlen, Nat.sub_self, List.replicate_zero, List.append_nil]
  refine List.ext_getElem (by simp; omega) fun i _ _ => ?_
  simp [Nat.add_assoc]

/-- A byte of a list at a place that the list has. -/
theorem getD_of_lt (l : List Byte) (i : Nat) (h : i < l.length) : l.getD i 0 = l[i] := by
  rw [List.getD_eq_getElem?_getD, List.getElem?_eq_getElem h, Option.getD_some]

/-- A byte after a write of bytes. -/
theorem get_memWrite (m : List Host.Cell) (a : Nat) (l : List Byte) (p : Nat) :
    SMap.get 0 (memWrite m a l) p = if a ≤ p ∧ p < a + l.length then l.getD (p - a) 0 else SMap.get 0 m p := by
  split
  · next h =>
    obtain ⟨i, rfl⟩ := Nat.exists_eq_add_of_le h.1
    have hi : i < l.length := by omega
    rw [get_memWrite_inside m a l i hi, Nat.add_sub_cancel_left, getD_of_lt _ _ hi]
  · exact get_memWrite_outside m a l p (by omega)

/-! ### The granules of a run -/

/-- A granule is one of a run's where a byte of the run lies in it. -/
theorem mem_gransOf {a n g : Nat} : g ∈ gransOf a n ↔ ∃ p, a ≤ p ∧ p < a + n ∧ p / 64 = g := by
  unfold gransOf
  split
  · simp only [List.not_mem_nil, false_iff]
    omega
  · simp only [List.mem_map, List.mem_range]
    constructor
    · rintro ⟨i, hi, rfl⟩
      exact ⟨max a (64 * (a / 64 + i)), by omega⟩
    · rintro ⟨p, h1, h2, rfl⟩
      exact ⟨p / 64 - a / 64, by omega⟩

/-- The granules of consecutive numbers, read one after the other, are one run. -/
theorem flatMap_granules (m : List Host.Cell) (q k : Nat) :
    ((List.range k).map (q + ·)).flatMap (fun g => memRead m (64 * g) 64) = memRead m (64 * q) (64 * k) := by
  induction k with
  | zero => rfl
  | succ k ih =>
    rw [List.range_succ, List.map_append, List.flatMap_append, ih, Nat.mul_succ 64 k, memRead_append]
    simp [Nat.mul_add]

/-! ### Reads -/

/-- Only rows of the stacks may have been opened. -/
def OnlyStacks (s u : State) : Prop := u = { s with memory := { s.memory with stks := u.memory.stks } }

theorem OnlyStacks.refl (s : State) : OnlyStacks s s := rfl
theorem OnlyStacks.trans {s u v : State} (h : OnlyStacks s u) (g : OnlyStacks u v) : OnlyStacks s v := by
  unfold OnlyStacks at *
  rw [g, h]
theorem OnlyStacks.bytes {s u : State} (h : OnlyStacks s u) : u.memory.bytes = s.memory.bytes := by rw [h]
theorem OnlyStacks.host {s u : State} (h : OnlyStacks s u) : u.host = s.host := by rw [h]
theorem OnlyStacks.granErr {s u : State} (h : OnlyStacks s u) (g : Nat) : u.granErr g = s.granErr g := by rw [h]; rfl

theorem State.touchRow_only (s : State) (g : Nat) : OnlyStacks s (s.touchRow g) := rfl

/-- A read of a granule that holds no error (R313, R343). -/
theorem State.granReadAt_ok (s : State) (g point : Nat) (h : s.granErr g = .ok) :
    s.granReadAt g point = (s.touchRow g, s.granBytes g, false) := by
  have ht : (s.touchRow g).granErr g = .ok := h
  have hr : s.granRead g = (s.touchRow g, s.granBytes g, .ok) := by
    unfold State.granRead
    simp only [ht]
  unfold State.granReadAt
  rw [hr]
  rfl

/-- One granule more of a run that is read: the state, the bytes so far, and the first poisoned granule. -/
def readGran (point : Nat) (acc : State × List Byte × Option Nat) (g : Nat) : State × List Byte × Option Nat :=
  let r := acc.1.granReadAt g point
  (r.1, acc.2.1 ++ r.2.1, acc.2.2 <|> (if r.2.2 then some g else none))

theorem State.pkgRead_eq (s : State) (a n point : Nat) :
    s.pkgRead a n point =
      (((gransOf a n).foldl (readGran point) (s, [], none)).1,
        sliceBytes ((gransOf a n).foldl (readGran point) (s, [], none)).2.1 (a % 64) n,
        ((gransOf a n).foldl (readGran point) (s, [], none)).2.2) := rfl

theorem readGran_ok (point : Nat) (s : State) (l : List Byte) (g : Nat) (h : s.granErr g = .ok) :
    readGran point (s, l, none) g = (s.touchRow g, l ++ s.granBytes g, none) := by
  unfold readGran
  rw [s.granReadAt_ok g point h]
  rfl

/-- Reading granules that hold no error: the bytes in their order, and nothing but open rows differs. -/
theorem readGrans_ok (point : Nat) (gs : List Nat) (s : State) (l : List Byte) (h : ∀ g ∈ gs, s.granErr g = .ok) :
    ∃ u, OnlyStacks s u ∧ gs.foldl (readGran point) (s, l, none) = (u, l ++ gs.flatMap s.granBytes, none) := by
  induction gs generalizing s l with
  | nil => exact ⟨s, .refl s, by simp⟩
  | cons g gs ih =>
    obtain ⟨u, hu, he⟩ := ih (s.touchRow g) (l ++ s.granBytes g) fun k hk => h k (by simp [hk])
    refine ⟨u, hu, ?_⟩
    rw [List.foldl_cons, readGran_ok point s l g (h g (by simp)), he, List.append_assoc]
    rfl

/-- A read of a run without errors returns package memory's bytes (R343). -/
theorem State.pkgRead_ok (s : State) (a n point : Nat) (hn : 0 < n) (h : ∀ p, a ≤ p → p < a + n → s.granErr (p / 64) = .ok) :
    ∃ u, OnlyStacks s u ∧ s.pkgRead a n point = (u, memRead s.memory.bytes a n, none) := by
  have hok : ∀ g ∈ gransOf a n, s.granErr g = .ok := by
    intro g hg
    obtain ⟨p, h1, h2, rfl⟩ := mem_gransOf.mp hg
    exact h p h1 h2
  have hbytes : (gransOf a n).flatMap s.granBytes =
      memRead s.memory.bytes (64 * (a / 64)) (64 * ((a + n - 1) / 64 - a / 64 + 1)) := by
    rw [gransOf, if_neg (by omega)]
    exact flatMap_granules _ _ _
  have hstart : 64 * (a / 64) + a % 64 = a := Nat.div_add_mod a 64
  obtain ⟨u, hu, he⟩ := readGrans_ok point (gransOf a n) s [] hok
  refine ⟨u, hu, ?_⟩
  rw [State.pkgRead_eq, he, List.nil_append, hbytes]
  dsimp only
  rw [sliceBytes_memRead _ _ _ _ _ (by omega), hstart]

/-! ### Writes -/

@[simp] theorem mergeBytes_length (l : List Byte) (ws : List (Nat × Byte)) : (mergeBytes l ws).length = l.length := by
  induction ws generalizing l with
  | nil => rfl
  | cons w ws ih => exact (ih _).trans (by simp)

/-- Bytes placed one after the other: those places hold them, and every other byte is as before. -/
theorem mergeBytes_getD (l : List Byte) (o n : Nat) (f : Nat → Byte) (k : Nat) (hk : k < l.length) :
    (mergeBytes l ((List.range n).map fun i => (o + i, f i))).getD k 0 = if o ≤ k ∧ k < o + n then f (k - o) else l.getD k 0 := by
  induction n with
  | zero => rw [if_neg (by omega)]; rfl
  | succ n ih =>
    have hstep : mergeBytes l ((List.range (n + 1)).map fun i => (o + i, f i)) =
        (mergeBytes l ((List.range n).map fun i => (o + i, f i))).set (o + n) (f n) := by
      simp [mergeBytes, List.range_succ]
    rw [hstep, getD_of_lt _ _ (by simpa using hk), List.getElem_set]
    split
    · next h =>
      rw [if_pos (by omega), ← h, Nat.add_sub_cancel_left]
    · next h =>
      rw [← getD_of_lt _ _ _, ih]
      by_cases hin : o ≤ k ∧ k < o + n
      · rw [if_pos hin, if_pos (by omega)]
      · rw [if_neg hin, if_neg (by omega)]

/-- A granule after the bytes of a run that fall in it have been placed. -/
theorem mergeBytes_runIn (old : List Byte) (a : Nat) (l : List Byte) (g k : Nat) (hold : old.length = 64) (hk : k < 64) :
    (mergeBytes old (runIn a l g)).getD k 0 =
      if a ≤ 64 * g + k ∧ 64 * g + k < a + l.length then l.getD (64 * g + k - a) 0 else old.getD k 0 := by
  have hrun : runIn a l g = (List.range (min (a + l.length) (64 * g + 64) - max a (64 * g))).map
      fun i => (max a (64 * g) - 64 * g + i, l.getD (max a (64 * g) + i - a) 0) := by
    unfold runIn
    refine List.map_congr_left fun i _ => ?_
    rw [Nat.sub_add_comm (Nat.le_max_right a (64 * g))]
  rw [hrun, mergeBytes_getD old _ _ (fun i => l.getD (max a (64 * g) + i - a) 0) k (hold ▸ hk)]
  by_cases hin : a ≤ 64 * g + k ∧ 64 * g + k < a + l.length
  · rw [if_pos hin, if_pos (by omega)]
    congr 1
    omega
  · rw [if_neg hin, if_neg (by omega)]

/-- The bytes of package memory and the errors of its granules are all that may differ, beside open rows. -/
def OnlyPackage (s u : State) : Prop :=
  u = { s with memory := { s.memory with stks := u.memory.stks, bytes := u.memory.bytes, gran := u.memory.gran } }

theorem OnlyPackage.refl (s : State) : OnlyPackage s s := rfl
theorem OnlyPackage.trans {s u v : State} (h : OnlyPackage s u) (g : OnlyPackage u v) : OnlyPackage s v := by
  unfold OnlyPackage at *
  rw [g, h]

/-- A write of unpoisoned bytes into a granule that holds no error: its bytes with those placed among them (R344). -/
theorem State.granWrite_ok (s : State) (g : Nat) (ws : List (Nat × Byte)) (h : s.granErr g = .ok) :
    (s.granWrite g ws false).1 = { s.touchRow g with memory := { (s.touchRow g).memory with
      bytes := memWrite s.memory.bytes (64 * g) (mergeBytes (s.granBytes g) ws),
      gran := SMap.put .ok s.memory.gran g .ok } } := by
  unfold State.granWrite
  split
  · rfl
  · rw [s.granReadAt_ok g 3 h]
    rfl

/-- From s to u the bytes of a run l at a that lie in the granules gs, and no others, have taken the run's values. -/
def Stored (s u : State) (a : Nat) (l : List Byte) (gs : List Nat) : Prop :=
  ∀ p, SMap.get 0 u.memory.bytes p =
    if p / 64 ∈ gs ∧ a ≤ p ∧ p < a + l.length then l.getD (p - a) 0 else SMap.get 0 s.memory.bytes p

/-- A write of what of a run falls in one granule. -/
theorem State.granWrite_stores (s : State) (a : Nat) (l : List Byte) (g : Nat) (h : s.granErr g = .ok) :
    Stored s (s.granWrite g (runIn a l g) false).1 a l [g] := by
  have hlen : (mergeBytes (s.granBytes g) (runIn a l g)).length = 64 := by simp [State.granBytes]
  intro p
  rw [s.granWrite_ok g _ h, get_memWrite, hlen]
  by_cases hp : p / 64 = g
  · have hk : p - 64 * g < 64 := by omega
    have hadd : 64 * g + (p - 64 * g) = p := by omega
    have hold : (s.granBytes g).getD (p - 64 * g) 0 = SMap.get 0 s.memory.bytes p := by
      rw [State.granBytes, getD_of_lt _ _ (by simpa using hk), memRead_getElem, hadd]
    rw [if_pos (by omega), mergeBytes_runIn _ a l g _ (by simp [State.granBytes]) hk, hadd, hold]
    simp only [List.mem_singleton, hp, true_and]
  · rw [if_neg (by omega), if_neg (by simp [hp])]

/-- Writing what of a run falls in granules that hold no error, granule by granule. -/
theorem State.granWrites_store (a : Nat) (l : List Byte) (gs : List Nat) (s : State) (h : ∀ g ∈ gs, s.granErr g = .ok) :
    OnlyPackage s (s.each gs fun s g => (s.granWrite g (runIn a l g) false).1) ∧
      Stored s (s.each gs fun s g => (s.granWrite g (runIn a l g) false).1) a l gs := by
  induction gs generalizing s with
  | nil => exact ⟨.refl s, fun p => by simp [State.each]⟩
  | cons g gs ih =>
    have hg := h g (by simp)
    have hrest : ∀ k ∈ gs, (s.granWrite g (runIn a l g) false).1.granErr k = .ok := by
      intro k hk
      rw [s.granWrite_ok g _ hg]
      unfold State.granErr
      rw [SMap.get_put]
      split
      · rfl
      · exact h k (by simp [hk])
    obtain ⟨honly, hst⟩ := ih _ hrest
    have hfirst : OnlyPackage s (s.granWrite g (runIn a l g) false).1 := by
      rw [s.granWrite_ok g _ hg]
      rfl
    refine ⟨hfirst.trans honly, fun p => ?_⟩
    refine (hst p).trans ?_
    rw [s.granWrite_stores a l g hg p]
    split
    · next hin => rw [if_pos ⟨List.mem_cons_of_mem g hin.1, hin.2⟩]
    · next hout =>
      have hiff : (p / 64 ∈ [g] ∧ a ≤ p ∧ p < a + l.length) ↔ (p / 64 ∈ g :: gs ∧ a ≤ p ∧ p < a + l.length) := by
        rw [List.mem_singleton, List.mem_cons]
        exact ⟨fun h => ⟨.inl h.1, h.2⟩, fun h => ⟨h.1.resolve_right fun hm => hout ⟨hm, h.2⟩, h.2⟩⟩
      exact ite_congr (propext hiff) (fun _ => rfl) fun _ => rfl

/-- A write of unpoisoned bytes into package memory whose granules hold no error stores them, and changes nothing else but open
rows and the marks of the granules (R344). -/
theorem State.pkgWrite_ok (s : State) (a : Nat) (l : List Byte) (h : ∀ p, a ≤ p → p < a + l.length → s.granErr (p / 64) = .ok) :
    OnlyPackage s (s.pkgWrite a l fun _ => false) ∧ ∀ p, SMap.get 0 (s.pkgWrite a l fun _ => false).memory.bytes p =
      if a ≤ p ∧ p < a + l.length then l.getD (p - a) 0 else SMap.get 0 s.memory.bytes p := by
  have hok : ∀ g ∈ gransOf a l.length, s.granErr g = .ok := by
    intro g hg
    obtain ⟨p, h1, h2, rfl⟩ := mem_gransOf.mp hg
    exact h p h1 h2
  obtain ⟨honly, hst⟩ := State.granWrites_store a l _ s hok
  refine ⟨honly, fun p => ?_⟩
  have hmem : (p / 64 ∈ gransOf a l.length ∧ a ≤ p ∧ p < a + l.length) ↔ (a ≤ p ∧ p < a + l.length) :=
    ⟨And.right, fun hp => ⟨mem_gransOf.mpr ⟨p, hp.1, hp.2, rfl⟩, hp⟩⟩
  exact (hst p).trans (ite_congr (propext hmem) (fun _ => rfl) fun _ => rfl)

end Sys2Proof.Machine
end

section
/-! SUPPORT. The BARs, the register pairs and the power states of the host port (R12, R13, R343, R344, R390, R408, R410). -/

namespace Sys2Proof.Machine

/-! ### Stacks that are asleep (R315, R390) -/

/-- An address of package memory lies in one of the eight stacks (R315). -/
theorem State.place_stack_lt (s : State) (a : Nat) (h : a < s.capacity) : (s.place a).stack < 8 := by
  have hcap : s.capacity / 8 * 8 = s.capacity := by
    unfold State.capacity
    split <;> rfl
  have hb (b : Bool) : b2n b ≤ 1 := by cases b <;> decide
  unfold State.place
  dsimp only
  split
  · have := hb (decide (a ≥ s.capacity / 2))
    dsimp only
    omega
  · exact Nat.div_lt_of_lt_mul (by omega)
  · exact Nat.mod_lt _ (by decide)

/-- What is package memory of the device lies below its capacity (R314). -/
theorem State.locKind_package_lt (s : State) {a : Nat} (h : s.locKind a = .package) : a < s.capacity := by
  unfold State.locKind at h
  split at h
  · assumption
  · split at h <;> cases h

/-- A place in package memory is an address below the capacity (R314). -/
theorem State.placeOf_package_lt (s : State) {g a : Nat} (h : s.placeOf g = .package a) : a < s.capacity := by
  unfold State.placeOf at h
  dsimp only at h
  split at h
  · cases h
  · split at h
    · split at h
      · next hkind =>
        cases h
        exact s.locKind_package_lt hkind
      · cases h
      · cases h
    · cases h

/-- The stacks that a range needs are among the eight. -/
theorem State.rangeAsleep_lt (s : State) (g n m : Nat) (h : m ∈ s.rangeAsleep g n) : m < 8 := by
  unfold State.rangeAsleep at h
  split at h
  · exact absurd h List.not_mem_nil
  · rw [List.mem_eraseDups, List.mem_filterMap] at h
    obtain ⟨i, -, hi⟩ := h
    split at hi
    · next a ha =>
      dsimp only at hi
      split at hi
      · cases hi
      · cases hi
        exact s.place_stack_lt a (s.placeOf_package_lt ha)
    · cases hi

/-- No range needs a stack that is off where all are on. -/
theorem State.rangeAsleep_on (s : State) (g n : Nat) (h : ∀ m, m < 8 → s.domainOn (162 + m) = true) : s.rangeAsleep g n = [] := by
  have hready : ((List.range 8).all fun m => s.stackReady m = .ready) = true := by
    rw [List.all_eq_true]
    intro m hm
    simp [State.stackReady, hbmDomain, h m (List.mem_range.mp hm)]
  rw [State.rangeAsleep, if_pos (.inr hready)]

/-! ### Waking a stack (R388–R390) -/

/-- Nothing may have changed but the list of the domains that are to come on, and none has left it. -/
def OnlyPending (s u : State) : Prop :=
  u = { s with power := { s.power with domPending := u.power.domPending } } ∧ ∀ d ∈ s.power.domPending, d ∈ u.power.domPending

theorem OnlyPending.refl (s : State) : OnlyPending s s := ⟨rfl, fun _ hd => hd⟩
theorem OnlyPending.trans {s u v : State} (h : OnlyPending s u) (g : OnlyPending u v) : OnlyPending s v := by
  refine ⟨?_, fun d hd => g.2 d (h.2 d hd)⟩
  rw [g.1, h.1]
theorem OnlyPending.host {s u : State} (h : OnlyPending s u) : u.host = s.host := by rw [h.1]
theorem OnlyPending.memory {s u : State} (h : OnlyPending s u) : u.memory = s.memory := by rw [h.1]
theorem OnlyPending.domainOn {s u : State} (h : OnlyPending s u) (d : Nat) : u.domainOn d = s.domainOn d := by rw [h.1]; rfl

/-- The domain is on or is to come on. -/
def Woken (s : State) (d : Nat) : Prop := s.domainOn d = true ∨ d ∈ s.power.domPending

theorem OnlyPending.woken {s u : State} (h : OnlyPending s u) {d : Nat} (hd : Woken s d) : Woken u d :=
  hd.imp (fun ho => (h.domainOn d).trans ho) (h.2 d)

/-- A stack's domain needs no other, so that asking for it wakes it (R388, R389). -/
theorem State.switchOn_stack (s : State) (m : Nat) (hm : m < 8) :
    OnlyPending s (s.switchOn (162 + m)) ∧ Woken (s.switchOn (162 + m)) (162 + m) := by
  have hneeds : domainNeeds (162 + m) = [] := by
    unfold domainNeeds
    rw [if_neg (by omega), if_neg (by omega), if_neg (by omega)]
  have hswitch : s.switchOn (162 + m) = s.switchOnOne (162 + m) := by
    have hfused : s.domainFused (162 + m) = false := by
      have : ¬ 162 + m < 144 := by omega
      simp [State.domainFused, this]
    simp [State.switchOn, State.domBlocked, hfused, hneeds, State.each]
  rw [hswitch, State.switchOnOne]
  split
  · next h =>
    rw [Bool.or_eq_true, List.contains_iff_mem] at h
    exact ⟨.refl s, h⟩
  · exact ⟨⟨rfl, fun _ hd => List.mem_append_left _ hd⟩, .inr (by simp)⟩

/-- Asking for stacks one after the other wakes each of them. -/
theorem State.switchOn_stacks (l : List Nat) (s : State) (h : ∀ m ∈ l, m < 8) :
    OnlyPending s (s.each l fun s m => s.switchOn (hbmDomain m)) ∧
      ∀ m ∈ l, Woken (s.each l fun s m => s.switchOn (hbmDomain m)) (162 + m) := by
  induction l generalizing s with
  | nil => exact ⟨.refl s, fun m hm => absurd hm List.not_mem_nil⟩
  | cons k l ih =>
    obtain ⟨hone, hk⟩ := s.switchOn_stack k (h k (by simp))
    obtain ⟨hall, hl⟩ := ih (s.switchOn (162 + k)) fun m hm => h m (by simp [hm])
    refine ⟨hone.trans hall, fun m hm => ?_⟩
    rcases List.mem_cons.mp hm with rfl | hm
    · exact hall.woken hk
    · exact hl m hm

/-! ### The counts of accesses that cannot be made (R12) -/

@[simp] theorem State.countHostErr_host (s : State) (b : Bool) : (s.countHostErr b).host = s.host := rfl
@[simp] theorem State.countHostErr_memory (s : State) (b : Bool) : (s.countHostErr b).memory = s.memory := rfl

/-- A refused access through BAR2 counts in the low half. -/
theorem State.countHostErr_bar2 (s : State) :
    (s.countHostErr true).log.hostErr.extractLsb' 0 16 = satInc (s.log.hostErr.extractLsb' 0 16) := by
  simp only [State.countHostErr, if_true]
  rw [BitVec.extractLsb'_append_eq_of_add_le (by decide), BitVec.extractLsb'_eq_self]

/-- A bad access of BAR0 counts in the high half. -/
theorem State.countHostErr_bar0 (s : State) :
    (s.countHostErr false).log.hostErr.extractLsb' 16 16 = satInc (s.log.hostErr.extractLsb' 16 16) := by
  simp only [State.countHostErr, Bool.false_eq_true, if_false]
  rw [BitVec.extractLsb'_append_eq_of_le (by decide), BitVec.extractLsb'_eq_self]

/-- An access through BAR2 that cannot be made is counted and answered as unsupported (R12). -/
theorem unserved_answers (s : State) (hd0 : s.host.power = .d0) :
    ((s.countHostErr true).emit .unsupported).host.out = s.host.out ++ [.unsupported] ∧
      ((s.countHostErr true).emit .unsupported).log.hostErr.extractLsb' 0 16 = satInc (s.log.hostErr.extractLsb' 0 16) ∧
      ((s.countHostErr true).emit .unsupported).memory = s.memory := by
  rw [State.emit_log]
  exact ⟨State.emit_out _ _ hd0, s.countHostErr_bar2, State.emit_memory _ _⟩

/-- A bad access of BAR0 is counted and answered as unsupported (R12). -/
theorem badAccess_answers (s : State) (hd0 : s.host.power = .d0) :
    ((s.countHostErr false).emit .unsupported).host.out = s.host.out ++ [.unsupported] ∧
      ((s.countHostErr false).emit .unsupported).log.hostErr.extractLsb' 16 16 = satInc (s.log.hostErr.extractLsb' 16 16) := by
  rw [State.emit_log]
  exact ⟨State.emit_out _ _ hd0, s.countHostErr_bar0⟩

/-! ### The BAR2 window (R343, R344, R390, R409, R410) -/

section
variable (s : State) (off len : Nat) (data : List Byte)

/-- Outside BAR2 the function claims no access (R409). -/
theorem bar2Read_outside (h : s.inBar2 off len = false) : exec (.bar2Read off len) s = .next s := by
  change execBar2Read off len s = _
  rw [execBar2Read, if_pos h]

theorem bar2Write_outside (h : s.inBar2 off data.length = false) : exec (.bar2Write off data false) s = .next s := by
  change execBar2Write off data false s = _
  rw [execBar2Write, if_pos h]

/-- Before READY and outside package memory an access through the window is counted, and a read unsupported (R12, R410). -/
theorem bar2Read_unserved (h : s.inBar2 off len = true) (hn : s.host.ready = false ∨ s.capacity < s.bar2Addr off + len) :
    exec (.bar2Read off len) s = .next ((s.countHostErr true).emit .unsupported) := by
  change execBar2Read off len s = _
  have hun : ¬ s.host.ready = true ∨ ¬ s.inPackage (s.bar2Addr off) len = true := by simpa [State.inPackage] using hn
  rw [execBar2Read, if_neg (by simp [h]), if_pos hun]

theorem bar2Write_unserved (h : s.inBar2 off data.length = true)
    (hn : s.host.ready = false ∨ s.capacity < s.bar2Addr off + data.length) :
    exec (.bar2Write off data false) s = .next (s.countHostErr true) := by
  change execBar2Write off data false s = _
  have hun : ¬ s.host.ready = true ∨ ¬ s.inPackage (s.bar2Addr off) data.length = true := by simpa [State.inPackage] using hn
  rw [execBar2Write, if_neg (by simp [h]), if_pos hun]

/-- The window serves a run: the device is READY, and the run lies in BAR2 and in package memory. -/
structure Bar2Serves (off n : Nat) : Prop where
  ready : s.host.ready = true
  inBar : s.inBar2 off n = true
  inPackage : s.bar2Addr off + n ≤ s.capacity

variable {s off len data}

theorem Bar2Serves.served {n : Nat} (h : Bar2Serves s off n) :
    ¬ (¬ s.host.ready = true ∨ ¬ s.inPackage (s.bar2Addr off) n = true) := by
  simp [State.inPackage, h.ready, h.inPackage]

/-- The stacks that an access through the window needs and that are off (R390). -/
def State.bar2Asleep (s : State) (off n : Nat) : List Nat := s.rangeAsleep (s.globalAddr (s.bar2Addr off)) n

/-- One of them is held off by its request bit. -/
def State.bar2HeldOff (s : State) (off n : Nat) : Bool := (s.bar2Asleep off n).any fun m => s.domReqOff (162 + m)

/-- The state in which they have all been asked for. -/
def State.bar2Woken (s : State) (off n : Nat) : State := s.each (s.bar2Asleep off n) fun s m => s.switchOn (hbmDomain m)

/-- An access that wakes stacks changes the list of the domains that are to come on, and each of the stacks' is on it. -/
theorem State.bar2Woken_spec (s : State) (off n : Nat) :
    OnlyPending s (s.bar2Woken off n) ∧ ∀ m ∈ s.bar2Asleep off n, Woken (s.bar2Woken off n) (162 + m) :=
  State.switchOn_stacks _ s fun m hm => s.rangeAsleep_lt _ _ m hm

theorem State.bar2_awake {s : State} (h : ∀ m, m < 8 → s.domainOn (162 + m) = true) (off n : Nat) :
    s.bar2Asleep off n = [] ∧ s.bar2HeldOff off n = false := by
  have ha : s.bar2Asleep off n = [] := s.rangeAsleep_on _ _ h
  exact ⟨ha, by rw [State.bar2HeldOff, ha]; rfl⟩

/-- A read that the window serves is refused, or wakes the stacks that are asleep, or is answered (R343, R390). -/
theorem Bar2Serves.read_eq (h : Bar2Serves s off len) : exec (.bar2Read off len) s =
    if s.bar2HeldOff off len = true then .next (s.emit .unsupported)
    else if s.bar2Asleep off len ≠ [] then .next (s.bar2Woken off len)
    else .next ((s.pkgRead (s.bar2Addr off) len 2).1.emit
      (.completion (s.pkgRead (s.bar2Addr off) len 2).2.1 (s.pkgRead (s.bar2Addr off) len 2).2.2.isSome)) := by
  change execBar2Read off len s = _
  rw [execBar2Read, if_neg (by simp [h.inBar]), if_neg h.served]
  rfl

/-- A write that the window serves is refused and counted, or wakes the stacks that are asleep, or is stored (R344, R390). -/
theorem Bar2Serves.write_eq (h : Bar2Serves s off data.length) : exec (.bar2Write off data false) s =
    if s.bar2HeldOff off data.length = true then .next (s.countHostErr true)
    else if s.bar2Asleep off data.length ≠ [] then .next (s.bar2Woken off data.length)
    else .next (s.pkgWrite (s.bar2Addr off) data fun _ => false) := by
  change execBar2Write off data false s = _
  rw [execBar2Write, if_neg (by simp [h.inBar]), if_neg h.served]
  rfl

/-- A read that needs a stack held off is refused (R390). -/
theorem Bar2Serves.read_refused (h : Bar2Serves s off len) (hr : s.bar2HeldOff off len = true) :
    exec (.bar2Read off len) s = .next (s.emit .unsupported) :=
  h.read_eq.trans (if_pos hr)

/-- A read that needs stacks that are asleep wakes them (R390). -/
theorem Bar2Serves.read_wakes (h : Bar2Serves s off len) (hr : s.bar2HeldOff off len = false) (ha : s.bar2Asleep off len ≠ []) :
    exec (.bar2Read off len) s = .next (s.bar2Woken off len) :=
  h.read_eq.trans ((if_neg (Bool.eq_false_iff.mp hr)).trans (if_pos ha))

/-- A read whose stacks are on completes with what package memory holds (R343). -/
theorem Bar2Serves.read_answers (h : Bar2Serves s off len) (hr : s.bar2HeldOff off len = false) (ha : s.bar2Asleep off len = []) :
    exec (.bar2Read off len) s = .next ((s.pkgRead (s.bar2Addr off) len 2).1.emit
      (.completion (s.pkgRead (s.bar2Addr off) len 2).2.1 (s.pkgRead (s.bar2Addr off) len 2).2.2.isSome)) :=
  h.read_eq.trans ((if_neg (Bool.eq_false_iff.mp hr)).trans (if_neg (not_not_intro ha)))

/-- A write that needs a stack held off is counted (R390). -/
theorem Bar2Serves.write_refused (h : Bar2Serves s off data.length) (hr : s.bar2HeldOff off data.length = true) :
    exec (.bar2Write off data false) s = .next (s.countHostErr true) :=
  h.write_eq.trans (if_pos hr)

/-- A write that needs stacks that are asleep wakes them (R390). -/
theorem Bar2Serves.write_wakes (h : Bar2Serves s off data.length) (hr : s.bar2HeldOff off data.length = false)
    (ha : s.bar2Asleep off data.length ≠ []) :
    exec (.bar2Write off data false) s = .next (s.bar2Woken off data.length) :=
  h.write_eq.trans ((if_neg (Bool.eq_false_iff.mp hr)).trans (if_pos ha))

/-- A write whose stacks are on is stored (R344). -/
theorem Bar2Serves.write_stores (h : Bar2Serves s off data.length) (hr : s.bar2HeldOff off data.length = false)
    (ha : s.bar2Asleep off data.length = []) :
    exec (.bar2Write off data false) s = .next (s.pkgWrite (s.bar2Addr off) data fun _ => false) :=
  h.write_eq.trans ((if_neg (Bool.eq_false_iff.mp hr)).trans (if_neg (not_not_intro ha)))

end

/-! ### Registers and pairs (R13, R14) -/

section
variable {s : State} {off : Nat}

/-- An output leaves the holding registers of the pairs alone. -/
@[simp] theorem State.emit_pairHold (s : State) (o : HostOut) : (s.emit o).host.pairHold = s.host.pairHold := by
  unfold State.emit
  split <;> rfl

/-- A read of a pair's low word answers it, and keeps the high word for its own read (R13). -/
theorem pairLowRead_answers (hd0 : s.host.power = .d0) (hup : s.portUp = true) (hready : s.host.ready = true)
    (hlow : isPairLow off = true) : ∃ u, exec (.bar0PairLowRead off) s = .next u ∧
      u.host.out = s.host.out ++ [.completion (leBytes 4 (s.pairValue off % 2 ^ 32)) false] ∧
      SMap.get 0 u.host.pairHold off = BitVec.ofNat 32 (s.pairValue off / 2 ^ 32) := by
  refine ⟨_, if_pos ⟨hup, hready, hlow⟩, State.emit_out _ _ hd0, ?_⟩
  rw [State.emit_pairHold]
  exact SMap.get_put_same _ _ _ _

/-- A write of a pair's high word is kept, and changes nothing else (R13). -/
theorem pairHighWrite_stages (hup : s.portUp = true) (hready : s.host.ready = true) (v : Word32) :
    exec (.bar0PairHighWrite 0x100034 v) s = .next (s.pairHighWrite 0x100030 v) :=
  congrArg Host.Outcome.next (if_pos ⟨hup, hready, by decide, by decide⟩)

/-- A write of a pair's low word changes both halves, the high word being the one that was kept (R13). -/
theorem pairLowWrite_writes (hup : s.portUp = true) (hready : s.host.ready = true) (v : Word32) :
    exec (.bar0PairLowWrite 0x100030 v) s = .next (s.pairLowWrite 0x100030 v) :=
  congrArg Host.Outcome.next (if_pos ⟨hup, hready, by decide⟩)

/-- An aligned write of BAR0 that reaches no pair is a write of its register. -/
theorem registerWrite_pokes (hup : s.portUp = true) (hoff : off % 4 = 0 ∧ off < 0x4000000)
    (hpair : isPairLow off = false ∧ (4 ≤ off → isPairLow (off - 4) = false)) (v : Word32) :
    exec (.registerWrite off v) s = .next (s.bar0Poke off v) := by
  change execRegisterWrite off v s = _
  rw [execRegisterWrite, if_neg (by simp [hup]), if_pos hoff, State.bar0Write, if_neg (Bool.eq_false_iff.mp hpair.1),
    if_neg fun h => Bool.eq_false_iff.mp (hpair.2 h.1) h.2]

/-- An unaligned write follows R12. -/
theorem registerWrite_unaligned (hup : s.portUp = true) (hoff : off % 4 ≠ 0) (v : Word32) :
    exec (.registerWrite off v) s = .next ((s.countHostErr false).emit .unsupported) := by
  change execRegisterWrite off v s = _
  rw [execRegisterWrite, if_neg (by simp [hup]), if_neg fun h => hoff h.1]

/-- A write of CMDQ_ADMIN_SIZE changes it, while the admin queue is not enabled (R411). -/
theorem bar0Poke_adminSize (hready : s.host.ready = true) (v : Word32) : s.bar0Poke 0x100020 v =
    if s.host.adminEn = true then s else { s with host := { s.host with adminSize := v &&& 0x1FFF1FFF } } := by
  have hblock : s.bar0Poke 0x100020 v = s.cmdqWrite 0x20 v := if_neg (by simp [hready])
  exact hblock

/-! ### Power states (R408) -/

/-- With no copy waiting, the return to D0 turns the port's domain on and lets the held outputs go. -/
theorem hostPowerState_d0 (hcopies : s.host.copies = []) : exec (.hostPowerState .d0) s = .next
    { s with host := { s.host with power := .d0, out := s.host.out ++ s.host.held, held := [] },
             power := { s.power with domOff := s.power.domOff.filter fun d => decide (d ≠ 206) } } := by
  change execHostPowerState .d0 s = _
  unfold execHostPowerState State.pumpCopies
  simp [hcopies, State.each]

end

/-- Settles O51: the window's accesses by whether it serves them and its stacks are on, then the registers and the power states. -/
theorem barAccesses : Obligations.BarAccesses := by
  unfold Obligations.BarAccesses
  intro s off len v data hd0
  refine ⟨bar2Read_outside s off len, bar2Write_outside s off data, ?readAsleep, ?writeAsleep, ?awake, ?readUnserved, ?writeUnserved,
    ?bad, ?bar0, ?d3hot, ?l2, ?d0⟩
  case readAsleep =>
    intro hready hin hcap
    have h : Bar2Serves s off len := ⟨hready, hin, hcap⟩
    refine ⟨fun hr => ⟨_, h.read_refused hr, State.emit_out _ _ hd0, State.emit_memory _ _⟩, fun ha hr => ?_⟩
    obtain ⟨honly, hwoken⟩ := s.bar2Woken_spec off len
    exact ⟨_, h.read_wakes hr ha, honly.host, honly.memory, hwoken⟩
  case writeAsleep =>
    intro hready hin hcap
    have h : Bar2Serves s off data.length := ⟨hready, hin, hcap⟩
    refine ⟨fun hr => ⟨_, h.write_refused hr, rfl, rfl, s.countHostErr_bar2⟩, fun ha hr => ?_⟩
    obtain ⟨honly, hwoken⟩ := s.bar2Woken_spec off data.length
    exact ⟨_, h.write_wakes hr ha, honly.host, honly.memory, hwoken⟩
  case awake =>
    intro hready hon
    refine ⟨fun hin hcap hlen hwhole => ?_, fun hin hcap hlen hwhole => ?_⟩
    · have h : Bar2Serves s off len := ⟨hready, hin, hcap⟩
      obtain ⟨hnone, hfree⟩ := State.bar2_awake hon off len
      obtain ⟨u, honly, hread⟩ := s.pkgRead_ok (s.bar2Addr off) len 2 hlen hwhole
      refine ⟨_, h.read_answers hfree hnone, ?_, ?_⟩
      · rw [hread, State.emit_out _ _ (honly.host ▸ hd0), honly.host]
        rfl
      · rw [State.emit_memory, hread]
        exact honly.bytes
    · have h : Bar2Serves s off data.length := ⟨hready, hin, hcap⟩
      obtain ⟨hnone, hfree⟩ := State.bar2_awake hon off data.length
      obtain ⟨honly, hbytes⟩ := s.pkgWrite_ok (s.bar2Addr off) data hwhole
      refine ⟨_, h.write_stores hfree hnone, fun i hi => ?_, fun p hp => ?_, by rw [honly]⟩
      · refine (hbytes _).trans ?_
        rw [if_pos ⟨Nat.le_add_right _ _, Nat.add_lt_add_left hi _⟩]
        exact congrArg (data.getD · 0) (Nat.add_sub_cancel_left _ _)
      · exact (hbytes p).trans (if_neg (by unfold State.bar2Addr; omega))
  case readUnserved =>
    intro hin hn
    exact ⟨_, bar2Read_unserved s off len hin hn, unserved_answers s hd0⟩
  case writeUnserved =>
    intro hin hn
    exact ⟨_, bar2Write_unserved s off data hin hn, rfl, rfl, s.countHostErr_bar2⟩
  case bad => exact ⟨_, rfl, badAccess_answers s hd0⟩
  case bar0 =>
    intro hup hready
    refine ⟨pairLowRead_answers hd0 hup hready, ?_, ?_, ?_, ?_, ?_⟩
    · exact ⟨_, pairHighWrite_stages hup hready v, rfl, List.mem_cons_self⟩
    · intro hi hstaged
      refine ⟨_, pairLowWrite_writes hup hready v, ?_, ?_⟩
      · simp only [State.pairLowWrite, hstaged]
        rfl
      · intro e he
        exact of_decide_eq_true (List.mem_filter.mp he).2
    · exact ⟨_, registerWrite_pokes hup (by decide) (by decide) v, rfl⟩
    · have hsize := bar0Poke_adminSize hready v
      refine ⟨_, registerWrite_pokes hup (by decide) (by decide) v, fun hen => ?_, fun hen => ?_⟩
      · rw [hsize, if_neg (by simp [hen])]
      · rw [hsize, if_pos hen]
    · intro hoff
      exact ⟨_, registerWrite_unaligned hup hoff v, badAccess_answers s hd0⟩
  case d3hot =>
    exact ⟨_, rfl, rfl, fun o => rfl⟩
  case l2 =>
    refine ⟨_, rfl, ?_⟩
    simp [State.domainOn]
  case d0 =>
    intro hcopies
    refine ⟨_, hostPowerState_d0 hcopies, ?_, rfl, rfl⟩
    simp [State.domainOn]

end Sys2Proof.Machine
end

section
/-! SUPPORT. The exchange engine: its fetches, the words that it puts on the tracks, its receives and their faults (R231–R233, R268, R272,
R275, R283, R284). -/

namespace Sys2Proof.Machine

/-! ### The engine's run (R233) -/

/-- The engine of tile `t` stands at `q`; of the tiles and tracks nothing else differs. -/
structure EngineAt (t : TileId) (q : XchRun) (s u : State) : Prop where
  run : u.tile t = { s.tile t with xch := some q }
  others : ∀ o, o ≠ t → u.tile o = s.tile o
  tracks : u.tracks = s.tracks

theorem EngineAt.refl {s : State} {t : TileId} {r : XchRun} (h : (s.tile t).xch = some r) : EngineAt t r s s :=
  ⟨by rw [← h], fun _ _ => rfl, rfl⟩

theorem EngineAt.trans {t : TileId} {p q : XchRun} {s u v : State} (h : EngineAt t p s u) (g : EngineAt t q u v) :
    EngineAt t q s v :=
  ⟨by rw [g.run, h.run], fun o ho => (g.others o ho).trans (h.others o ho), g.tracks.trans h.tracks⟩

theorem EngineAt.xch {t : TileId} {q : XchRun} {s u : State} (h : EngineAt t q s u) : (u.tile t).xch = some q := by
  rw [h.run]

theorem EngineAt.sp {t : TileId} {q : XchRun} {s u : State} (h : EngineAt t q s u) (o : TileId) :
    (u.tile o).sp = (s.tile o).sp := by
  by_cases ho : o = t
  · rw [ho, h.run]
  · rw [h.others o ho]

theorem EngineAt.ctx {t : TileId} {q : XchRun} {s u : State} (h : EngineAt t q s u) (o : TileId) (c : Bool) :
    u.ctx o c = s.ctx o c := by
  unfold State.ctx
  by_cases ho : o = t
  · rw [ho, h.run]
    rfl
  · rw [h.others o ho]

theorem EngineAt.mem_tracks {t : TileId} {q : XchRun} {s u : State} (h : EngineAt t q s u) {v : TrackWord} (hv : v ∈ s.tracks) :
    v ∈ u.tracks := by
  rwa [h.tracks]

theorem State.modRun_engine {s : State} {t : TileId} {r : XchRun} (h : (s.tile t).xch = some r) (f : XchRun → XchRun) :
    EngineAt t (f r) s (s.modRun t f) :=
  ⟨by simp [State.modRun, h], fun o ho => State.modTile_tile_ne _ _ _ _ ho, rfl⟩

@[simp] theorem State.countCe_tracks (s : State) (t : TileId) (n : Nat) : (s.countCe t n).tracks = s.tracks := by
  unfold State.countCe
  split
  · rfl
  · dsimp only
    split
    · rw [State.alarm_only]
      rfl
    · rfl

@[simp] theorem State.countCe_tile (s : State) (t o : TileId) (n : Nat) : (s.countCe t n).tile o = s.tile o :=
  congrArg (SMap.get Tile.reset · o.toNat) (s.countCe_tiles t n)

theorem EngineAt.of_countCe {t o : TileId} {n : Nat} {q : XchRun} {s u : State} (h : EngineAt t q (s.countCe o n) u) :
    EngineAt t q s u :=
  ⟨by rw [h.run, s.countCe_tile], fun _ hi => (h.others _ hi).trans (s.countCe_tile o _ n), h.tracks.trans (s.countCe_tracks o n)⟩

/-! ### Fetches of the list (R233) -/

/-- A run `q` is `r` with some more of its list fetched. -/
structure XchRun.Fetched (r q : XchRun) : Prop where
  only : q = { r with buf := q.buf, lines := q.lines }
  buf : r.buf <+: q.buf
  lines : r.lines ≤ q.lines

theorem XchRun.Fetched.refl (r : XchRun) : r.Fetched r := ⟨rfl, List.prefix_rfl, Nat.le_refl _⟩

theorem XchRun.Fetched.trans {p q r : XchRun} (h : p.Fetched q) (g : q.Fetched r) : p.Fetched r :=
  ⟨by rw [g.only, h.only], h.buf.trans g.buf, Nat.le_trans h.lines g.lines⟩

theorem State.xFetch_fetches {s : State} {t : TileId} {r : XchRun} (h : (s.tile t).xch = some r) (at' : Nat) :
    ∃ q, r.Fetched q ∧ EngineAt t q s (s.xFetch t r at') := by
  have hc : ∀ n, ((s.countCe t n).tile t).xch = some r := fun n => by rw [State.countCe_tile, h]
  refine ⟨_, ?_, (State.modRun_engine (hc _) _).of_countCe⟩
  exact ⟨rfl, List.prefix_append _ _, Nat.le_succ _⟩

theorem State.xFill_fetches {t : TileId} (now fuel : Nat) : ∀ {s : State} {r : XchRun}, (s.tile t).xch = some r →
    ∃ q, r.Fetched q ∧ EngineAt t q s (s.xFill t now fuel) := by
  induction fuel with
  | zero => exact fun h => ⟨_, .refl _, .refl h⟩
  | succ fuel ih =>
    intro s r h
    simp only [State.xFill, h]
    split
    · obtain ⟨p, hp, hsp⟩ := State.xFetch_fetches h (max (2 * r.lines) (r.last.getD 0))
      obtain ⟨q, hq, hsq⟩ := ih hsp.xch
      exact ⟨q, hp.trans hq, hsp.trans hsq⟩
    · exact ⟨r, .refl r, .refl h⟩

/-! ### Words on the tracks (R268, R272) -/

/-- Two words meet on one track of a zone in one exchange cycle. -/
def TrackWord.Meets (v w : TrackWord) : Prop := v.zone = w.zone ∧ v.inst = w.inst ∧ v.lane = w.lane ∧ v.cycle = w.cycle

theorem TrackWord.Meets.refl (v : TrackWord) : v.Meets v := ⟨rfl, rfl, rfl, rfl⟩

theorem TrackWord.Meets.inst {v w : TrackWord} (h : v.Meets w) : v.inst = w.inst := h.2.1

theorem TrackWord.Meets.trans {v w x : TrackWord} (h : v.Meets w) (g : w.Meets x) : v.Meets x := by
  obtain ⟨hz, hi, hl, hc⟩ := h
  obtain ⟨gz, gi, gl, gc⟩ := g
  exact ⟨hz.trans gz, hi.trans gi, hl.trans gl, hc.trans gc⟩

@[simp] theorem State.drive_tiles (s : State) (w : TrackWord) : (s.drive w).tiles = s.tiles := by
  unfold State.drive
  dsimp only
  split <;> rfl

/-- A driven word joins the words of the tracks, or it collides with those that it meets there (R268). -/
theorem State.drive_cases (s : State) (w : TrackWord) :
    ((∀ v ∈ s.tracks, ¬ v.Meets w) ∧ (s.drive w).tracks = s.tracks ++ [w]) ∨
    ((∃ v ∈ s.tracks, v.Meets w) ∧ ∃ p : TrackWord → Bool, (∀ v, p v = true ↔ v.Meets w) ∧
      (s.drive w).tracks = updateWhere p (fun v => { v with collide := true }) s.tracks) := by
  have hp : ∀ v : TrackWord, (decide (v.zone = w.zone) && decide (v.inst = w.inst) && decide (v.lane = w.lane) &&
      decide (v.cycle = w.cycle)) = true ↔ v.Meets w := fun v => by simp [TrackWord.Meets, and_assoc]
  unfold State.drive
  dsimp only
  split
  case isTrue h =>
    obtain ⟨v, hv, hm⟩ := List.any_eq_true.mp h
    exact .inr ⟨⟨v, hv, (hp v).mp hm⟩, _, hp, rfl⟩
  case isFalse h => exact .inl ⟨fun v hv hm => h (List.any_eq_true.mpr ⟨v, hv, (hp v).mpr hm⟩), rfl⟩

/-- A drive keeps a word at each place that had one. -/
theorem State.drive_keeps {s : State} {w v : TrackWord} (h : v ∈ s.tracks) : ∃ x ∈ (s.drive w).tracks, x.Meets v := by
  obtain ⟨-, hd⟩ | ⟨-, p, -, hd⟩ := s.drive_cases w <;> rw [hd]
  · exact ⟨v, List.mem_append_left _ h, .refl v⟩
  · refine ⟨_, List.mem_map_of_mem h, ?_⟩
    split <;> exact ⟨rfl, rfl, rfl, rfl⟩

/-- A drive leaves the words alone that it does not meet. -/
theorem State.drive_other {s : State} {w v : TrackWord} (h : v ∈ s.tracks) (hv : ¬ v.Meets w) : v ∈ (s.drive w).tracks := by
  obtain ⟨-, hd⟩ | ⟨-, p, hp, hd⟩ := s.drive_cases w <;> rw [hd]
  · exact List.mem_append_left _ h
  · exact List.mem_map.mpr ⟨v, h, if_neg (mt (hp v).mp hv)⟩

/-- A word after a drive meets the driven one or stood there before. -/
theorem State.mem_drive {s : State} {w v : TrackWord} (h : v ∈ (s.drive w).tracks) : v.Meets w ∨ v ∈ s.tracks := by
  obtain ⟨-, hd⟩ | ⟨-, p, hp, hd⟩ := s.drive_cases w <;> rw [hd] at h
  · obtain hv | hv := List.mem_append.mp h
    · exact .inr hv
    · exact .inl (List.mem_singleton.mp hv ▸ .refl v)
  · obtain ⟨x, hx, rfl⟩ := List.mem_map.mp h
    split
    · next hm => exact .inl ((hp x).mp hm)
    · exact .inr hx

/-- Where no word stands, the driven word stands after the drive. -/
theorem State.drive_free {s : State} {w : TrackWord} (h : ∀ v ∈ s.tracks, ¬ v.Meets w) : w ∈ (s.drive w).tracks := by
  obtain ⟨-, hd⟩ | ⟨⟨v, hv, hm⟩, -⟩ := s.drive_cases w
  · rw [hd]
    exact List.mem_append_right _ (List.mem_singleton_self w)
  · exact absurd hm (h v hv)

/-- After a drive its place has a word. -/
theorem State.drive_reaches (s : State) (w : TrackWord) : ∃ v ∈ (s.drive w).tracks, v.Meets w := by
  by_cases h : ∃ v ∈ s.tracks, v.Meets w
  · obtain ⟨v, hv, hm⟩ := h
    obtain ⟨x, hx, hxv⟩ := State.drive_keeps (w := w) hv
    exact ⟨x, hx, hxv.trans hm⟩
  · exact ⟨w, State.drive_free fun v hv hm => h ⟨v, hv, hm⟩, .refl w⟩

/-! ### A send over the instances of its receivers (R231, R268, R272) -/

/-- A sent word as it comes to a receiver, with its poison: `w` is the word as it leaves its tile, at the cycle of its send. -/
def TrackWord.toward (w : TrackWord) (d : TileId) (poison : Bool) : TrackWord :=
  { w with inst := laneInst w.lane d, cycle := w.cycle + laneLatency w.lane w.src (regionOf d), poison := poison }

/-- A sent word goes on one track of its lane, toward the first receiver that listens there. -/
def State.driveInst (w : TrackWord) (s : State) (i : Nat) : State :=
  match w.rset.filter fun d => laneInst w.lane d = i with
  | d :: _ =>
    s.drive { w with
      inst := i, cycle := w.cycle + laneLatency w.lane w.src (regionOf d),
      poison := w.poison || decide (2 ≤ laneClass w.lane) && ((s.region (regionOf d)).crossing w.src).slipped }
  | [] => s

/-- Receivers that share a track of a lane share its latency (R267, R272, R273). -/
theorem laneLatency_of_inst {lane src : Nat} {d e : TileId} (h : laneInst lane d = laneInst lane e) :
    laneLatency lane src (regionOf d) = laneLatency lane src (regionOf e) := by
  by_cases hc : laneClass lane = 0
  · simp only [laneLatency, hc]
  · simp only [laneInst, if_neg hc] at h
    rw [h]

/-- Driving the track of a receiver drives the word toward it. -/
theorem State.driveInst_receiver (s : State) {w : TrackWord} {d : TileId} (hd : d ∈ w.rset) :
    ∃ p, s.driveInst w (laneInst w.lane d) = s.drive (w.toward d p) := by
  have hmem : d ∈ w.rset.filter fun e => laneInst w.lane e = laneInst w.lane d :=
    List.mem_filter.mpr ⟨hd, decide_eq_true rfl⟩
  unfold State.driveInst
  split
  case h_1 e l hl =>
    have he : laneInst w.lane e = laneInst w.lane d :=
      of_decide_eq_true (List.mem_filter.mp (hl ▸ List.mem_cons_self : e ∈ w.rset.filter _)).2
    exact ⟨_, by rw [laneLatency_of_inst he]; rfl⟩
  case h_2 hl => rw [hl] at hmem; cases hmem

/-- Driving a track puts one word there or none. -/
theorem State.driveInst_cases (w : TrackWord) (s : State) (i : Nat) :
    s.driveInst w i = s ∨ ∃ v : TrackWord, v.inst = i ∧ s.driveInst w i = s.drive v := by
  unfold State.driveInst
  split
  · exact .inr ⟨_, rfl, rfl⟩
  · exact .inl rfl

/-- A sent word goes on each track of a list. -/
def State.driveInsts (s : State) (w : TrackWord) (l : List Nat) : State := l.foldl (State.driveInst w) s

theorem State.driveInsts_tiles (w : TrackWord) (l : List Nat) : ∀ s : State, (s.driveInsts w l).tiles = s.tiles := by
  induction l with
  | nil => exact fun _ => rfl
  | cons i l ih =>
    intro s
    refine (ih _).trans ?_
    obtain h | ⟨v, -, h⟩ := s.driveInst_cases w i <;> rw [h]
    exact s.drive_tiles v

theorem State.driveInsts_keeps (w : TrackWord) (l : List Nat) : ∀ {s : State} {v : TrackWord}, v ∈ s.tracks →
    ∃ x ∈ (s.driveInsts w l).tracks, x.Meets v := by
  induction l with
  | nil => exact fun h => ⟨_, h, .refl _⟩
  | cons i l ih =>
    intro s v hv
    have hi : ∃ x ∈ (s.driveInst w i).tracks, x.Meets v := by
      obtain h | ⟨y, -, h⟩ := s.driveInst_cases w i <;> rw [h]
      · exact ⟨v, hv, .refl v⟩
      · exact State.drive_keeps hv
    obtain ⟨x, hx, hxv⟩ := hi
    obtain ⟨y, hy, hyx⟩ := ih hx
    exact ⟨y, hy, hyx.trans hxv⟩

theorem State.driveInsts_other (w : TrackWord) (l : List Nat) : ∀ {s : State} {v : TrackWord}, v ∈ s.tracks → v.inst ∉ l →
    v ∈ (s.driveInsts w l).tracks := by
  induction l with
  | nil => exact fun h _ => h
  | cons i l ih =>
    intro s v hv hl
    obtain ⟨hi, hl⟩ := List.ne_and_not_mem_of_not_mem_cons hl
    refine ih ?_ hl
    obtain h | ⟨y, hy, h⟩ := s.driveInst_cases w i <;> rw [h]
    · exact hv
    · exact State.drive_other hv fun hm => hi (hm.inst.trans hy)

/-- A send leaves a word on the track of each of its receivers. -/
theorem State.driveInsts_reaches {w : TrackWord} {d : TileId} (hd : d ∈ w.rset) {l : List Nat} :
    ∀ {s : State}, laneInst w.lane d ∈ l → ∃ v ∈ (s.driveInsts w l).tracks, v.Meets (w.toward d false) := by
  induction l with
  | nil => exact fun h => absurd h List.not_mem_nil
  | cons i l ih =>
    intro s hl
    obtain rfl | hl := List.mem_cons.mp hl
    · obtain ⟨p, hp⟩ := s.driveInst_receiver hd
      obtain ⟨v, hv, hm⟩ := s.drive_reaches (w.toward d p)
      obtain ⟨x, hx, hxv⟩ := State.driveInsts_keeps w l (hp ▸ hv : v ∈ (s.driveInst w _).tracks)
      exact ⟨x, hx, hxv.trans hm⟩
    · exact ih hl

/-- On a track where nothing stood at the word's cycle, a send leaves its own word, without a collision. -/
theorem State.driveInsts_free {w : TrackWord} {d : TileId} (hd : d ∈ w.rset) {l : List Nat} :
    ∀ {s : State}, l.Nodup → laneInst w.lane d ∈ l → (∀ v ∈ s.tracks, ¬ v.Meets (w.toward d false)) →
    ∃ p, w.toward d p ∈ (s.driveInsts w l).tracks := by
  induction l with
  | nil => exact fun _ h => absurd h List.not_mem_nil
  | cons i l ih =>
    intro s hn hl hfree
    obtain ⟨hil, hn⟩ := List.nodup_cons.mp hn
    by_cases hi : laneInst w.lane d = i
    · subst hi
      obtain ⟨p, hp⟩ := s.driveInst_receiver hd
      have hmem : w.toward d p ∈ (s.driveInst w (laneInst w.lane d)).tracks := hp ▸ State.drive_free hfree
      exact ⟨p, State.driveInsts_other w l hmem hil⟩
    · refine ih hn ((List.mem_cons.mp hl).resolve_left hi) fun v hv hm => ?_
      obtain h | ⟨y, hy, h⟩ := s.driveInst_cases w i <;> rw [h] at hv
      · exact hfree v hv hm
      · obtain hvy | hv := State.mem_drive hv
        · exact hi (hm.inst.symm.trans (hvy.inst.trans hy))
        · exact hfree v hv hm

theorem mem_dedupNat {a : Nat} {l : List Nat} : a ∈ dedupNat l ↔ a ∈ l := by
  induction l with
  | nil => rfl
  | cons b l ih =>
    by_cases h : a = b <;> simp [dedupNat, ih, h]

theorem nodup_dedupNat (l : List Nat) : (dedupNat l).Nodup := by
  induction l with
  | nil => exact List.nodup_nil
  | cons a l ih => exact List.nodup_cons.mpr ⟨by simp, ih.filter _⟩

/-- The word of a send as it leaves its tile, with the cycle of the send; its instances are those of its receivers. -/
def Tile.sentWord (x : Tile) (t : TileId) (r : XchRun) (cycle lane addr : Nat) (dests : List TileId) : TrackWord :=
  { zone := (x.ctx r.ctx).zone, src := regionOf t, inst := 0, lane := lane, cycle := cycle,
    data := BitVec.ofNat 256 (leNat (x.read (x.phys r.ctx addr) 32)), poison := false, collide := false, rset := dests,
    heard := false }

/-- With no receive's write still to come, a send reads the scratchpad as it stands. -/
theorem Tile.asOf_of_undo_nil (x : Tile) {r : XchRun} (h : r.undo = []) (at' : Nat) : x.asOf r at' = x := by
  simp [Tile.asOf, h]

/-- A send of correct words drives the instances of its receivers, one after another (R268, R275). -/
theorem State.xSend_eq (s : State) (t : TileId) (r : XchRun) (cycle lane addr : Nat) (dests : List TileId) (hu : r.undo = [])
    (hb : (s.tile t).badWord ((s.tile t).phys r.ctx addr) 32 = none) : s.xSend t r cycle lane addr dests =
      (s.countCe t ((s.tile t).singles ((s.tile t).phys r.ctx addr) 32)).driveInsts
        ((s.tile t).sentWord t r cycle lane addr dests) (dedupNat (dests.map (laneInst lane))) := by
  unfold State.xSend
  simp only [Tile.asOf_of_undo_nil _ hu, hb]
  rfl

section
variable {s : State} {t : TileId} {r : XchRun} {cycle lane addr : Nat} {dests : List TileId}

theorem State.xSend_tile (hu : r.undo = []) (hb : (s.tile t).badWord ((s.tile t).phys r.ctx addr) 32 = none) (o : TileId) :
    (s.xSend t r cycle lane addr dests).tile o = s.tile o := by
  rw [State.xSend_eq s t r cycle lane addr dests hu hb]
  unfold State.tile
  rw [State.driveInsts_tiles, State.countCe_tiles]

theorem State.xSend_reaches (hu : r.undo = []) (hb : (s.tile t).badWord ((s.tile t).phys r.ctx addr) 32 = none) {d : TileId}
    (hd : d ∈ dests) : ∃ v ∈ (s.xSend t r cycle lane addr dests).tracks,
      v.Meets (((s.tile t).sentWord t r cycle lane addr dests).toward d false) := by
  rw [State.xSend_eq s t r cycle lane addr dests hu hb]
  exact State.driveInsts_reaches hd (mem_dedupNat.mpr (List.mem_map_of_mem hd))

theorem State.xSend_free (hu : r.undo = []) (hb : (s.tile t).badWord ((s.tile t).phys r.ctx addr) 32 = none) {d : TileId}
    (hd : d ∈ dests)
    (hfree : ∀ v ∈ s.tracks, ¬ v.Meets (((s.tile t).sentWord t r cycle lane addr dests).toward d false)) :
    ∃ p, ((s.tile t).sentWord t r cycle lane addr dests).toward d p ∈ (s.xSend t r cycle lane addr dests).tracks := by
  rw [State.xSend_eq s t r cycle lane addr dests hu hb]
  refine State.driveInsts_free hd (nodup_dedupNat _) (mem_dedupNat.mpr (List.mem_map_of_mem hd)) ?_
  rwa [State.countCe_tracks]

end

/-! ### Faults and suppressed words (R76, R232, R285) -/

theorem State.xFault_tile (s : State) (t : TileId) (c : Bool) (cause cycle lane addr : Nat) :
    ∃ f, ((s.ctx t c).xfault = none → f.code = 0x0103 + cause ∧ f.cycle = cycle ∧ f.lane = lane) ∧
      (s.xFault t c cause cycle lane addr).tile t = (s.tile t).setCtx c { s.ctx t c with xfault := some f } := by
  unfold State.xFault
  simp only [(State.trace_only _ t c _ _).tile t, State.modCtx, State.setCtx_tile]
  cases h : (s.ctx t c).xfault with
  | none => exact ⟨_, fun _ => ⟨rfl, rfl, rfl⟩, rfl⟩
  | some f => exact ⟨_, nofun, rfl⟩

/-- A word that is suppressed for a fault: the engine passes over it, the scratchpad keeps its bytes, and the context holds the fault,
this one if it had none (R76, R232). -/
theorem State.fault_suppresses {s : State} {t : TileId} {r : XchRun} (h : (s.tile t).xch = some r)
    (cause cycle lane addr now : Nat) :
    ∃ q f, let u := ((s.xFault t r.ctx cause cycle lane addr).modRun t XchRun.suppressed).xNextFill t now
      (u.tile t).xch = some q ∧ q = { r with idx := r.idx + 1, buf := q.buf, lines := q.lines } ∧
      (u.tile t).sp = (s.tile t).sp ∧ (u.ctx t r.ctx).xfault = some f ∧
      ((s.ctx t r.ctx).xfault = none → f.code = 0x0103 + cause ∧ f.cycle = cycle ∧ f.lane = lane) := by
  obtain ⟨f, hf, htile⟩ := s.xFault_tile t r.ctx cause cycle lane addr
  have hx : ((s.xFault t r.ctx cause cycle lane addr).tile t).xch = some r := by rw [htile, Tile.setCtx_xch, h]
  have hrun := State.modRun_engine hx XchRun.suppressed
  obtain ⟨q, hq, hfill⟩ := State.xFill_fetches now 4 hrun.xch
  have hu := hrun.trans hfill
  refine ⟨q, f, hu.xch, hq.only, ?_, ?_, hf⟩
  · exact (hu.sp t).trans (by rw [htile, Tile.setCtx_sp])
  · exact congrArg Ctx.xfault ((hu.ctx t r.ctx).trans (by rw [State.ctx, htile, Tile.setCtx_ctx]))

/-! ### Receives (R268, R275, R283, R284) -/

/-- The words that stand on a tile's track of a lane at an exchange cycle. -/
def TrackWord.here (z : BitVec 3) (t : TileId) (lane cycle : Nat) (v : TrackWord) : Bool :=
  decide (v.zone = z) && decide (v.inst = laneInst lane t) && decide (v.lane = lane) && decide (v.cycle = cycle)

/-- The words on a tile's track of a lane at a cycle have been heard. -/
def State.heardAt (s : State) (z : BitVec 3) (t : TileId) (lane cycle : Nat) : State :=
  { s with tracks := updateWhere (TrackWord.here z t lane cycle) (fun v => { v with heard := true }) s.tracks }

section
variable {s : State} {t : TileId} {r : XchRun} {cycle lane : Nat} (addr : Nat) {v : TrackWord}

theorem State.xRecv_takes (h : s.tracks.find? (TrackWord.here (s.ctx t r.ctx).zone t lane cycle) = some v)
    (hc : v.collide = false) (ht : t ∈ v.rset) :
    s.xRecv t r cycle lane addr = (s.heardAt (s.ctx t r.ctx).zone t lane cycle).modTile t fun x =>
      x.xWrite (r.performed cycle true) cycle addr v.data v.poison := by
  unfold TrackWord.here at h
  simp only [State.xRecv, h, hc, List.contains_iff_mem.mpr ht, Bool.false_eq_true, if_true, if_false]
  rfl

theorem State.xRecv_collides (h : s.tracks.find? (TrackWord.here (s.ctx t r.ctx).zone t lane cycle) = some v)
    (hc : v.collide = true) : s.xRecv t r cycle lane addr =
      ((s.heardAt (s.ctx t r.ctx).zone t lane cycle).xFault t r.ctx 0 cycle lane r.wordAddr).modRun t XchRun.suppressed := by
  unfold TrackWord.here at h
  simp only [State.xRecv, h, hc, if_true]
  rfl

theorem State.xRecv_misses (h : s.tracks.find? (TrackWord.here (s.ctx t r.ctx).zone t lane cycle) = none) :
    s.xRecv t r cycle lane addr = (s.xFault t r.ctx 1 cycle lane r.wordAddr).modRun t XchRun.suppressed := by
  unfold TrackWord.here at h
  simp only [State.xRecv, h]

end

section
variable (x : Tile) (r : XchRun) (cycle addr : Nat) (data : BitVec 256) (poison : Bool)

/-- A received word is written at its address (R275). -/
theorem Tile.xWrite_sp : (x.xWrite r cycle addr data poison).sp = memWrite x.sp (x.phys r.ctx addr) (leBytes 32 data.toNat) := by
  unfold Tile.xWrite
  cases poison <;> rfl

@[simp] theorem Tile.xWrite_ctx (c : Bool) : (x.xWrite r cycle addr data poison).ctx c = x.ctx c := by
  unfold Tile.xWrite
  cases poison <;> rfl

/-- The bytes that a received word wrote over stand first among those at hand (R275). -/
theorem Tile.xWrite_xch : ∃ e l, (x.xWrite r cycle addr data poison).xch =
    some { r with undo := (cycle, addr, BitVec.ofNat 256 (leNat (x.read (x.phys r.ctx addr) 32)), e) :: l } :=
  ⟨_, _, rfl⟩

end

/-- A word that is received: the engine moves past it and holds what it wrote over, and its context has no new fault (R275). -/
theorem State.write_takes (s : State) (t : TileId) (r : XchRun) (cycle addr : Nat) (data : BitVec 256) (poison : Bool) :
    ∃ q e, let x := s.tile t
      let u := (s.modTile t fun x => x.xWrite (r.performed cycle true) cycle addr data poison).xNextFill t cycle
      (u.tile t).xch = some q ∧
      q = { r with idx := r.idx + 1, last := some cycle, lastRecv := some cycle, buf := q.buf, lines := q.lines, undo := q.undo } ∧
      r.buf.drop 1 <+: q.buf ∧
      q.undo.head? = some (cycle, addr, BitVec.ofNat 256 (leNat (x.read (x.phys r.ctx addr) 32)), e) ∧
      (u.ctx t r.ctx).xfault = (x.ctx r.ctx).xfault ∧
      (u.tile t).sp = memWrite x.sp (x.phys r.ctx addr) (leBytes 32 data.toNat) := by
  have htile := s.modTile_tile t fun x => x.xWrite (r.performed cycle true) cycle addr data poison
  obtain ⟨e, l, hx⟩ := (s.tile t).xWrite_xch (r.performed cycle true) cycle addr data poison
  obtain ⟨q, hq, hu⟩ := State.xFill_fetches cycle 4 ((congrArg Tile.xch htile).trans hx)
  refine ⟨q, e, hu.xch, ?_, hq.buf, ?_, ?_, ?_⟩
  · rw [hq.only]
    rfl
  · rw [hq.only]
    rfl
  · exact congrArg Ctx.xfault ((hu.ctx t r.ctx).trans ((congrArg (Tile.ctx · r.ctx) htile).trans (Tile.xWrite_ctx ..)))
  · exact (hu.sp t).trans ((congrArg Tile.sp htile).trans (Tile.xWrite_sp ..))

/-! ### The two commands -/

section
variable {s : State} {t : TileId} {r : XchRun} {cycle lane addr : Nat} {dests : List TileId}

theorem exchangeSend_eq (hr : (s.tile t).xch = some r) (hw : s.xWord t r = .send cycle lane addr dests)
    (hturn : s.xTurn t (s.ctx t r.ctx).zone (s.xWord t r) = true) (hin : addr + 32 ≤ (s.tile t).partSize r.ctx) :
    exec (.exchangeSend t) s =
      .next (((s.xSend t r cycle lane addr dests).modRun t fun r => r.performed cycle false).xNextFill t cycle) := by
  have hinside : (s.tile t).xInside r.ctx addr = true := decide_eq_true hin
  rw [hw] at hturn
  change execExchangeSend t s = _
  simp only [execExchangeSend, hr, hw, hturn, hinside, if_true]

theorem exchangeReceive_eq (hr : (s.tile t).xch = some r) (hw : s.xWord t r = .recv cycle lane addr)
    (hturn : s.xTurn t (s.ctx t r.ctx).zone (s.xWord t r) = true) (hin : addr + 32 ≤ (s.tile t).partSize r.ctx) :
    exec (.exchangeReceive t) s = .next ((s.xRecv t r cycle lane addr).xNextFill t cycle) := by
  have hinside : (s.tile t).xInside r.ctx addr = true := decide_eq_true hin
  rw [hw] at hturn
  change execExchangeReceive t s = _
  simp only [execExchangeReceive, hr, hw, hturn, hinside, if_true]

end

/-- Settles O29: a send drives the instances of its receivers one after another and leaves the tiles alone; a receive writes, or its
fault suppresses it; and the engine's fetches after a word only add to its buffer. -/
theorem exchangeWordsMove : Obligations.ExchangeWordsMove := by
  intro s t r hr
  refine ⟨fun cycle lane addr dests hw hturn hin hbad hundo => ?send, fun cycle lane addr hw hturn hin => ?receive⟩
  case send =>
    have hsent : ((s.xSend t r cycle lane addr dests).tile t).xch = some r := by rw [State.xSend_tile hundo hbad, hr]
    have hrun := State.modRun_engine hsent fun r => r.performed cycle false
    obtain ⟨q, hq, hfill⟩ := State.xFill_fetches cycle 4 hrun.xch
    have hu := hrun.trans hfill
    refine ⟨_, q, exchangeSend_eq hr hw hturn hin, hu.xch, hq.buf, hq.lines, hq.only, fun o => ?_, fun d hd => ?_, fun d hd hfree => ?_⟩
    · exact ⟨(hu.sp o).trans (by rw [State.xSend_tile hundo hbad]),
        (hu.ctx o false).trans (congrArg (Tile.ctx · false) (State.xSend_tile hundo hbad o)),
        (hu.ctx o true).trans (congrArg (Tile.ctx · true) (State.xSend_tile hundo hbad o))⟩
    · obtain ⟨v, hv, hm⟩ := State.xSend_reaches (cycle := cycle) (lane := lane) hundo hbad hd
      exact ⟨v, hu.mem_tracks hv, hm⟩
    · obtain ⟨p, hp⟩ := State.xSend_free (cycle := cycle) (lane := lane) hundo hbad hd hfree
      exact ⟨_, hu.mem_tracks hp, rfl, rfl, rfl, rfl⟩
  case receive =>
    have hexec := exchangeReceive_eq hr hw hturn hin
    refine ⟨fun v hv hc ht => ?taken, fun v hv hc => ?collision, fun hv => ?miss⟩
    case taken =>
      rw [State.xRecv_takes addr hv hc ht] at hexec
      obtain ⟨q, e, hrest⟩ := State.write_takes (s := s.heardAt (s.ctx t r.ctx).zone t lane cycle) t r cycle addr v.data v.poison
      exact ⟨_, q, e, hexec, hrest⟩
    case collision =>
      rw [State.xRecv_collides addr hv hc] at hexec
      obtain ⟨q, f, hrest⟩ := State.fault_suppresses (s := s.heardAt (s.ctx t r.ctx).zone t lane cycle) hr 0 cycle lane r.wordAddr cycle
      exact ⟨_, q, f, hexec, hrest⟩
    case miss =>
      rw [State.xRecv_misses addr hv] at hexec
      obtain ⟨q, f, hrest⟩ := State.fault_suppresses hr 1 cycle lane r.wordAddr cycle
      exact ⟨_, q, f, hexec, hrest⟩

end Sys2Proof.Machine
end
